-- ==== Sys2Proof/Word.lean ====
section
/-! DEFINITION. The word types of RSA-MCP CORE: the 8-bit digit (R8), the 32-bit command and register word
(R12, R13), and the two small operand types (R120, R121). -/

namespace Sys2Proof

/-- A digit, base 256 (R8). -/
abbrev Byte := BitVec 8

/-- A command word (R13) or the data of a 32-bit register access (R12). -/
abbrev Word := BitVec 32

/-- A byte address of the host port (R12, R70). -/
abbrev PortAddr := BitVec 16

/-- The number of a buffer register B0 to B7 (R10, R120). -/
abbrev BufId := Fin 8

/-- A sub-digit shift count 0 to 7 (R121). -/
abbrev ShiftCount := Fin 8

end Sys2Proof
end

