-- ==== Sys2Proof/Syntax.lean ====
section
/-! DEFINITION. The ten commands of CORE-CMD version 1, one constructor for each row of the opcode map (R112).
Operands stand in assembly order (R126); register numbers, digits and shift counts carry their range in their
type (R120, R121). -/

namespace Sys2Proof

/-- A command (R112). -/
inductive Instr where
  /-- NOP (R141). -/
  | nop
  /-- MAC a, b, c (R142). -/
  | mac (a b c : Byte)
  /-- SDIV lo, dv (R144): the low digit of the dividend, then the divisor. -/
  | sdiv (lo dv : Byte)
  /-- MUL Bd, Ba, Bb (R161). -/
  | mul (d a b : BufId)
  /-- SHL Bd, n (R164). -/
  | shl (d : BufId) (n : ShiftCount)
  /-- SHR Bd, n (R165). -/
  | shr (d : BufId) (n : ShiftCount)
  /-- REDUCE Bd, Ba (R170). -/
  | reduce (d a : BufId)
  /-- SETMOD Ba (R201). -/
  | setmod (a : BufId)
  /-- MODMUL Bd, Ba (R202). -/
  | modmul (d a : BufId)
  /-- MODEXP Bd, Ba, Bb (R205). -/
  | modexp (d a b : BufId)
deriving DecidableEq, Repr

end Sys2Proof
end

