-- ==== Sys2Proof/WellFormed.lean ====
section
/-! DEFINITION. The assembly form of a command (R126), whose operands are plain numbers as a programmer writes
them, the pseudo-instructions (R127), and the check that every operand is in range: "An immediate out of range
is an assembly error, never truncated" (R126). An `Instr` carries these ranges in its types, so each `Instr` is
well formed (`Laws.OperandsInRange`); the check says what may become one. -/

namespace Sys2Proof

/-- One assembly command with its operands as numbers (R126), pseudo-instructions included (R127). -/
inductive Asm where
  | nop
  | mac (a b c : Nat)
  | sdiv (lo dv : Nat)
  | mul (d a b : Nat)
  | shl (d n : Nat)
  | shr (d n : Nat)
  | reduce (d a : Nat)
  | setmod (a : Nat)
  | modmul (d a : Nat)
  | modexp (d a b : Nat)
  /-- SQR Bd, Ba: another spelling of MUL Bd, Ba, Ba (R127). -/
  | sqr (d a : Nat)
  /-- MODSQR Bd: another spelling of MODMUL Bd, Bd (R127). -/
  | modsqr (d : Nat)
  /-- CFLUSH: another spelling of MAC 0, 0, 0 (R127). -/
  | cflush
deriving DecidableEq, Repr

/-- A digit immediate is 0 to 255 (R126). -/
def digitInRange (v : Nat) : Bool := v < 256

/-- A buffer register is B0 to B7 (R126). -/
def bufInRange (k : Nat) : Bool := k < 8

/-- A shift count is 0 to 7 (R121, R126). -/
def shiftInRange (n : Nat) : Bool := n < 8

/-- Every operand of the command is in the range R126 gives it. -/
def Asm.wellFormed : Asm → Bool
  | .nop => true
  | .mac a b c => digitInRange a && digitInRange b && digitInRange c
  | .sdiv lo dv => digitInRange lo && digitInRange dv
  | .mul d a b => bufInRange d && bufInRange a && bufInRange b
  | .shl d n => bufInRange d && shiftInRange n
  | .shr d n => bufInRange d && shiftInRange n
  | .reduce d a => bufInRange d && bufInRange a
  | .setmod a => bufInRange a
  | .modmul d a => bufInRange d && bufInRange a
  | .modexp d a b => bufInRange d && bufInRange a && bufInRange b
  | .sqr d a => bufInRange d && bufInRange a
  | .modsqr d => bufInRange d
  | .cflush => true

/-- A command written back as assembly (R126). -/
def Instr.toAsm : Instr → Asm
  | .nop => .nop
  | .mac a b c => .mac a.toNat b.toNat c.toNat
  | .sdiv lo dv => .sdiv lo.toNat dv.toNat
  | .mul d a b => .mul d.val a.val b.val
  | .shl d n => .shl d.val n.val
  | .shr d n => .shr d.val n.val
  | .reduce d a => .reduce d.val a.val
  | .setmod a => .setmod a.val
  | .modmul d a => .modmul d.val a.val
  | .modexp d a b => .modexp d.val a.val b.val

/-- A command is well formed when its assembly form is (R126). -/
def Instr.wellFormed (i : Instr) : Bool := i.toAsm.wellFormed

/-- The pseudo-instructions' expansions (R127); any other command stands for itself. -/
def Asm.expand : Asm → Asm
  | .sqr d a => .mul d a a
  | .modsqr d => .modmul d d
  | .cflush => .mac 0 0 0
  | x => x

/-- The core command an expanded assembly command names, its operands already in range; the pseudo-instructions
are given through their expansion. -/
def Asm.core : Asm → Instr
  | .nop => .nop
  | .mac a b c => .mac (BitVec.ofNat 8 a) (BitVec.ofNat 8 b) (BitVec.ofNat 8 c)
  | .sdiv lo dv => .sdiv (BitVec.ofNat 8 lo) (BitVec.ofNat 8 dv)
  | .mul d a b => .mul (Fin.ofNat 8 d) (Fin.ofNat 8 a) (Fin.ofNat 8 b)
  | .shl d n => .shl (Fin.ofNat 8 d) (Fin.ofNat 8 n)
  | .shr d n => .shr (Fin.ofNat 8 d) (Fin.ofNat 8 n)
  | .reduce d a => .reduce (Fin.ofNat 8 d) (Fin.ofNat 8 a)
  | .setmod a => .setmod (Fin.ofNat 8 a)
  | .modmul d a => .modmul (Fin.ofNat 8 d) (Fin.ofNat 8 a)
  | .modexp d a b => .modexp (Fin.ofNat 8 d) (Fin.ofNat 8 a) (Fin.ofNat 8 b)
  | .sqr d a => .mul (Fin.ofNat 8 d) (Fin.ofNat 8 a) (Fin.ofNat 8 a)
  | .modsqr d => .modmul (Fin.ofNat 8 d) (Fin.ofNat 8 d)
  | .cflush => .mac 0 0 0

/-- Assembling one command: an operand out of range is an error, never truncated (R126). -/
def Asm.assemble (x : Asm) : Option Instr :=
  if x.wellFormed then some x.expand.core else none

end Sys2Proof
end

