-- ==== Sys2Proof/Decode.lean ====
section
/-! DEFINITION. The decoder of command words (R110 to R125), which refuses a word by name, and after it the
encoder (R126). Both are written from the format tables R113 to R119 and R129. -/

namespace Sys2Proof

/-- The seven formats (R113 to R119). -/
inductive Format where
  | n | d3 | d2 | r3 | r2 | r1 | sh
deriving DecidableEq, Repr

/-- Why a word is no command: the two decode errors, in the order they are checked (R125). -/
inductive DecodeError where
  /-- The opcode is not assigned (R123). -/
  | illegalOpcode
  /-- A reserved bit of the opcode's format is 1 (R122). -/
  | reservedField
deriving DecidableEq, Repr

/-- The bits that must be 0 in each format (R113 to R119). -/
def reservedMask : Format → Word
  | .n => 0x00FFFFFF#32
  | .d3 => 0x00000000#32
  | .d2 => 0x00FF0000#32
  | .r3 => 0x00888FFF#32
  | .r2 => 0x0088FFFF#32
  | .r1 => 0x00F8FFFF#32
  | .sh => 0x008FFFF8#32

/-- OPC, bits 31:24 (R111). -/
def opcodeOf (w : Word) : Byte := w.extractLsb' 24 8

/-- A of format D3, bits 23:16 (R114). -/
def fieldA (w : Word) : Byte := w.extractLsb' 16 8

/-- B of format D3, bits 15:8 (R114). -/
def fieldB (w : Word) : Byte := w.extractLsb' 8 8

/-- C of format D3, bits 7:0 (R114). -/
def fieldC (w : Word) : Byte := w.extractLsb' 0 8

/-- DV of format D2, bits 15:8 (R115). -/
def fieldDV (w : Word) : Byte := w.extractLsb' 8 8

/-- LO of format D2, bits 7:0 (R115). -/
def fieldLO (w : Word) : Byte := w.extractLsb' 0 8

/-- RD, bits 22:20 (R116, R117, R119). -/
def fieldRD (w : Word) : BufId := Fin.ofNat 8 (w.extractLsb' 20 3).toNat

/-- RA, bits 18:16 (R116 to R118). -/
def fieldRA (w : Word) : BufId := Fin.ofNat 8 (w.extractLsb' 16 3).toNat

/-- RB, bits 14:12 (R116). -/
def fieldRB (w : Word) : BufId := Fin.ofNat 8 (w.extractLsb' 12 3).toNat

/-- SH, bits 2:0 (R119). -/
def fieldSH (w : Word) : ShiftCount := Fin.ofNat 8 (w.extractLsb' 0 3).toNat

/-- The second check of R125: no bit under the format's reserved mask may be 1 (R122). -/
def checkReserved (f : Format) (w : Word) (i : Instr) : Except DecodeError Instr :=
  if w &&& reservedMask f = 0#32 then .ok i else .error .reservedField

/-- The command a word encodes (R125), by the opcode map (R112). -/
def decode (w : Word) : Except DecodeError Instr :=
  if opcodeOf w = 0x00#8 then checkReserved .n w .nop
  else if opcodeOf w = 0x01#8 then checkReserved .d3 w (.mac (fieldA w) (fieldB w) (fieldC w))
  else if opcodeOf w = 0x02#8 then checkReserved .d2 w (.sdiv (fieldLO w) (fieldDV w))
  else if opcodeOf w = 0x10#8 then checkReserved .r3 w (.mul (fieldRD w) (fieldRA w) (fieldRB w))
  else if opcodeOf w = 0x11#8 then checkReserved .sh w (.shl (fieldRD w) (fieldSH w))
  else if opcodeOf w = 0x12#8 then checkReserved .sh w (.shr (fieldRD w) (fieldSH w))
  else if opcodeOf w = 0x13#8 then checkReserved .r2 w (.reduce (fieldRD w) (fieldRA w))
  else if opcodeOf w = 0x20#8 then checkReserved .r1 w (.setmod (fieldRA w))
  else if opcodeOf w = 0x21#8 then checkReserved .r2 w (.modmul (fieldRD w) (fieldRA w))
  else if opcodeOf w = 0x22#8 then checkReserved .r3 w (.modexp (fieldRD w) (fieldRA w) (fieldRB w))
  else .error .illegalOpcode

/-! ## The encoder -/

/-- A field whose lowest bit is bit `lo` of the word (R15). -/
def placeAt {n : Nat} (v : BitVec n) (lo : Nat) : Word := v.setWidth 32 <<< lo

/-- OPC, bits 31:24 (R111). -/
def putOPC (opc : Byte) : Word := placeAt opc 24

/-- RD, bits 22:20 (R116, R117, R119). -/
def putRD (k : BufId) : Word := placeAt (BitVec.ofNat 3 k.val) 20

/-- RA, bits 18:16 (R116 to R118). -/
def putRA (k : BufId) : Word := placeAt (BitVec.ofNat 3 k.val) 16

/-- RB, bits 14:12 (R116). -/
def putRB (k : BufId) : Word := placeAt (BitVec.ofNat 3 k.val) 12

/-- Format N (R113). -/
def encodeN (opc : Byte) : Word := putOPC opc

/-- Format D3 (R114). -/
def encodeD3 (opc a b c : Byte) : Word := putOPC opc ||| placeAt a 16 ||| placeAt b 8 ||| placeAt c 0

/-- Format D2 (R115). -/
def encodeD2 (opc dv lo : Byte) : Word := putOPC opc ||| placeAt dv 8 ||| placeAt lo 0

/-- Format R3 (R116). -/
def encodeR3 (opc : Byte) (d a b : BufId) : Word := putOPC opc ||| putRD d ||| putRA a ||| putRB b

/-- Format R2 (R117). -/
def encodeR2 (opc : Byte) (d a : BufId) : Word := putOPC opc ||| putRD d ||| putRA a

/-- Format R1 (R118). -/
def encodeR1 (opc : Byte) (a : BufId) : Word := putOPC opc ||| putRA a

/-- Format SH (R119). -/
def encodeSH (opc : Byte) (d : BufId) (n : ShiftCount) : Word :=
  putOPC opc ||| putRD d ||| placeAt (BitVec.ofNat 3 n.val) 0

/-- The word of a command (R126). -/
def encode : Instr → Word
  | .nop => encodeN 0x00#8
  | .mac a b c => encodeD3 0x01#8 a b c
  | .sdiv lo dv => encodeD2 0x02#8 dv lo
  | .mul d a b => encodeR3 0x10#8 d a b
  | .shl d n => encodeSH 0x11#8 d n
  | .shr d n => encodeSH 0x12#8 d n
  | .reduce d a => encodeR2 0x13#8 d a
  | .setmod a => encodeR1 0x20#8 a
  | .modmul d a => encodeR2 0x21#8 d a
  | .modexp d a b => encodeR3 0x22#8 d a b

/-- The word of an assembly command, where it assembles (R126). -/
def Asm.encode (x : Asm) : Option Word := x.assemble.map Sys2Proof.encode

/-! ## The opcode table's words -/

/-- The command word of an opcode-table row: its low `nbits` bits, every higher bit 0. A register access is one
whole word (R87), so no byte order enters. -/
def tableWord (nbits w : Nat) : Word := BitVec.ofNat 32 (w % 2 ^ nbits)

/-- The command the decoder reads from a row's word; none where it refuses. -/
def decodeTableWord (nbits w : Nat) : Option Instr :=
  match decode (tableWord nbits w) with
  | .ok i => some i
  | .error _ => none

end Sys2Proof
end

