-- ==== Sys2Proof/Config.lean ====
section
/-! DEFINITION. What an implementation of RSA-MCP CORE fixes, and the free values: constants the spec gives,
and constants with no body for what it leaves open. -/

namespace Sys2Proof.Config

/-- NB, the number of buffer registers (R10). -/
def numBuffers : Nat := 8

/-- VERSION as CONFIG reports it (R36). -/
def version : Nat := 1

/-- The least CAP the spec allows (R9). -/
def minCap : Nat := 2

/-- The greatest CAP the spec allows (R9, R75). -/
def maxCap : Nat := 4096

/-- The reference configuration's CAP (R9). DESIGN CHOICE: `State.reset` takes it; every statement ranges over
all of `minCap` to `maxCap` (log 1). -/
def referenceCap : Nat := 64

/-- The spec's unspecified digits (U1, U2, U3): a free value for each draw and each digit index. It has no body,
so nothing can be proved about it (logs 2 and 3). -/
opaque freeDigit (draw index : Nat) : Byte

/-- PORT_BASE, where the port sits in the host's address space (U21, D20): no rule depends on it (log 10). -/
opaque portBase : Nat

/-- The host-space address of a port offset (R71). -/
def hostAddress (offset : PortAddr) : Nat := portBase + offset.toNat

end Sys2Proof.Config
end

