-- ==== Sys2Proof/Machine/State.lean ====
section
/-! DEFINITION. The state of RSA-MCP CORE (10_state.md), the events that move it, the reasons a step could stop,
and the state after reset (R54). -/

namespace Sys2Proof.Machine

/-- The error codes of STATUS.ERRCODE (R242). Codes 9 to 15 are never produced (U6), so they have no constructor. -/
inductive ErrCode where
  /-- Code 0: no error. -/
  | none
  /-- Code 1 (R123). -/
  | illegalOpcode
  /-- Code 2 (R122). -/
  | reservedField
  /-- Code 3 (R160). -/
  | noncanonical
  /-- Code 4 (R170, R201). -/
  | divisorShort
  /-- Code 5 (R161, R164). -/
  | capacity
  /-- Code 6 (R144). -/
  | sdivRange
  /-- Code 7, ALIAS (R161, R170, R205). -/
  | aliased
  /-- Code 8 (R200). -/
  | modulusUnset
deriving DecidableEq, Repr

/-- A buffer register (R30): CAP digits, digit 0 least significant, and the count of significant ones. -/
structure Buffer where
  digits : List Byte
  len : Nat
deriving DecidableEq, Repr

/-- The modulus register MOD (R35). -/
structure Modulus where
  digits : List Byte
  len : Nat
  valid : Bool
deriving DecidableEq, Repr

/-- What may happen next (R257): the two agents' moves and the external event. DESIGN CHOICE: their order is data
in the state (log 4). -/
inductive Event where
  /-- The engine's turn: it executes PEND when a command is pending (R257). -/
  | engine
  /-- The host reads `n` bytes at port address `addr` (R19). -/
  | read (addr : PortAddr) (n : Nat)
  /-- The host writes `n` bytes at port address `addr`; the data are the low `8 * n` bits of `v` (R19, log 12). -/
  | write (addr : PortAddr) (n : Nat) (v : Word)
  /-- The reset input of the platform (R280). -/
  | reset
deriving DecidableEq, Repr

/-- The whole state. The fields after `pend` are the model's own (logs 3, 4, 6). -/
structure State where
  /-- CAP, the digit capacity of every buffer register and of MOD (R9, R36). No step changes it (log 1). -/
  cap : Nat
  /-- B0 to B7 (R30). -/
  bufs : Vector Buffer 8
  /-- MOD (R35). -/
  modulus : Modulus
  /-- RES (R40, R43). -/
  res : Byte
  /-- CARRY (R40, R41). -/
  carry : Byte
  /-- REM (R40, R42). -/
  rem : Byte
  /-- STATUS.DONE (R47). -/
  done : Bool
  /-- STATUS.ERR (R48). -/
  err : Bool
  /-- STATUS.HERR (R49). -/
  herr : Bool
  /-- STATUS.ERRCODE (R48, R242). -/
  errcode : ErrCode
  /-- PEND, which exists only while STATUS.BUSY is 1 (R53); its presence is STATUS.BUSY (log 7). -/
  pend : Option Word
  /-- How many free values have been drawn (logs 2 and 3). -/
  draws : Nat
  /-- What happens next, the first first (log 4). -/
  schedule : List Event
  /-- What the host's reads returned, the newest first (log 6). -/
  reads : List Word
deriving DecidableEq, Repr

/-- A step faults nowhere: the spec's every failure is an error completion or a refused host access, each of which
has a next state (R240, R244, R247; 93_implementation_defined.md gives no item the treatment `stuck`). So there is no
constructor (log 11). Nobody raises one; safe. -/
inductive Fault
deriving DecidableEq, Repr

/-- A step refuses nowhere: every command of the opcode map has its meaning (log 11). -/
inductive Refusal where
  /-- Raised by `exec` alone, for a command that has no meaning yet, which no command is; safe. -/
  | notModelled (mnemonic : String)
deriving DecidableEq, Repr

/-- The outcome of a step of this machine. -/
abbrev Result := Host.Outcome State Fault Refusal

/-- An unspecified digit array of `count` digits from digit index `start` on: the free values of one draw
(U1, U2, U3). -/
def freeDigits (draw start count : Nat) : List Byte :=
  (List.range' start count).map (Config.freeDigit draw)

/-- A buffer register after reset: length 0, digits unspecified (R54, U2). -/
def resetBuffer (cap draw : Nat) : Buffer := { digits := freeDigits draw 0 cap, len := 0 }

/-- The reset values of R54 for a machine of capacity `cap`. The nine digit arrays take the draws `draw` to
`draw + 8` (log 2). What is to happen next and what the host has read lie outside the engine (log 18). -/
def State.atReset (cap draw : Nat) (schedule : List Event) (reads : List Word) : State where
  cap := cap
  bufs := #v[resetBuffer cap draw, resetBuffer cap (draw + 1), resetBuffer cap (draw + 2), resetBuffer cap (draw + 3),
    resetBuffer cap (draw + 4), resetBuffer cap (draw + 5), resetBuffer cap (draw + 6), resetBuffer cap (draw + 7)]
  modulus := { digits := freeDigits (draw + 8) 0 cap, len := 0, valid := false }
  res := 0#8
  carry := 0#8
  rem := 0#8
  done := false
  err := false
  herr := false
  errcode := .none
  pend := none
  draws := draw + 9
  schedule := schedule
  reads := reads

/-- The machine right after its first reset, in the reference configuration (R9, R54, R280). -/
def State.reset : State := State.atReset Config.referenceCap 0 [] []

end Sys2Proof.Machine
end

