-- ==== Sys2Proof/Machine/Operands.lean ====
section
/-! DEFINITION. Reading operands: the value of a digit array (R17), canonical form (R18, R32), a buffer
register's value and length, the modulus, and the exponent's bits (R206, R208). -/

namespace Sys2Proof.Machine

/-- The number a list of digits stands for, the least significant first (R17, R86). -/
def digitsVal : List Byte → Nat
  | [] => 0
  | d :: ds => d.toNat + 256 * digitsVal ds

/-- The significant digits of a buffer (R24, R55). -/
def Buffer.significant (b : Buffer) : List Byte := b.digits.take b.len

/-- `val(B[i])` (R17). -/
def Buffer.val (b : Buffer) : Nat := digitsVal b.significant

/-- The canonical form of R18: length 0, or a top digit that is not 0. -/
def isCanonical (digits : List Byte) (len : Nat) : Bool :=
  len == 0 || digits.getD (len - 1) 0#8 != 0#8

/-- `canonical(i)` (R18). -/
def Buffer.canonical (b : Buffer) : Bool := isCanonical b.digits b.len

/-- Buffer register Bi (R30): the one way a register is read. -/
def State.buf (s : State) (i : BufId) : Buffer := s.bufs[i]

/-- `val(B[i])` (R17). -/
def State.val (s : State) (i : BufId) : Nat := (s.buf i).val

/-- `B[i].len` (R17). -/
def State.len (s : State) (i : BufId) : Nat := (s.buf i).len

/-- `canonical(i)` (R18). -/
def State.canonical (s : State) (i : BufId) : Bool := (s.buf i).canonical

/-- `val(MOD)`, the N of 42_modular.md (R17). -/
def State.modVal (s : State) : Nat := digitsVal (s.modulus.digits.take s.modulus.len)

/-- The bits of one digit, high to low (R206). -/
def digitBits (d : Byte) : List Bool :=
  [d.getLsbD 7, d.getLsbD 6, d.getLsbD 5, d.getLsbD 4, d.getLsbD 3, d.getLsbD 2, d.getLsbD 1, d.getLsbD 0]

/-- The bits of an exponent in the order MODEXP scans them: digits from the most significant down, the bits of each
high to low (R206). -/
def exponentBits (digits : List Byte) : List Bool := digits.reverse.flatMap digitBits

end Sys2Proof.Machine
end

