-- ==== Sys2Proof/Machine/Flags.lean ====
section
/-! DEFINITION. The status bits and the words the host reads: STATUS (R37, R46 to R50), CONFIG (R36), SCALAR (R40),
and the write-one-to-clear rule of STATUS (R82). There are no condition codes (R51). -/

namespace Sys2Proof.Machine

/-- The 4-bit code of an error (R242). -/
def ErrCode.code : ErrCode → BitVec 4
  | .none => 0
  | .illegalOpcode => 1
  | .reservedField => 2
  | .noncanonical => 3
  | .divisorShort => 4
  | .capacity => 5
  | .sdivRange => 6
  | .aliased => 7
  | .modulusUnset => 8

/-- STATUS.BUSY: a command is pending (R46, R53). -/
def State.busy (s : State) : Bool := s.pend.isSome

/-- STATUS.MVALID, which always equals MOD.valid (R50). -/
def State.mvalid (s : State) : Bool := s.modulus.valid

/-- STATUS as the host reads it (R37). -/
def State.statusWord (s : State) : Word :=
  placeAt (BitVec.ofBool s.busy) 0 ||| placeAt (BitVec.ofBool s.done) 1 ||| placeAt (BitVec.ofBool s.err) 2 |||
    placeAt (BitVec.ofBool s.herr) 3 ||| placeAt (BitVec.ofBool s.mvalid) 4 ||| placeAt s.errcode.code 8

/-- CONFIG (R36). -/
def State.configWord (s : State) : Word :=
  placeAt (BitVec.ofNat 16 s.cap) 0 ||| placeAt (BitVec.ofNat 8 Config.numBuffers) 16 |||
    placeAt (BitVec.ofNat 8 Config.version) 24

/-- SCALAR as the host reads it (R40). -/
def State.scalarWord (s : State) : Word := placeAt s.res 0 ||| placeAt s.carry 8 ||| placeAt s.rem 16

/-- A write of `v` to STATUS clears DONE, ERR and HERR where the bit of `v` is 1, and ERRCODE with ERR (R82). -/
def State.clearStatus (s : State) (v : Word) : State :=
  { s with
    done := s.done && !v.getLsbD 1
    err := s.err && !v.getLsbD 2
    errcode := if v.getLsbD 2 then .none else s.errcode
    herr := s.herr && !v.getLsbD 3 }

/-- A write of `v` to SCALAR (R83). -/
def State.setScalars (s : State) (v : Word) : State :=
  { s with res := v.extractLsb' 0 8, carry := v.extractLsb' 8 8, rem := v.extractLsb' 16 8 }

end Sys2Proof.Machine
end

