-- ==== Sys2Proof/Machine/Ops.lean ====
section
/-! DEFINITION. The named operations over the state: the canonical write (R18), installing the modulus (R201),
accepting a command (R84), the two ways a command ends (R244, R245), the refusal of a host access (R77 to R81) and the
reset event (R280). -/

namespace Sys2Proof.Machine

/-! ## Numbers to digits -/

/-- The least L with `v < 256^L` (R18). -/
def digitCount (v : Nat) : Nat := if v = 0 then 0 else Nat.log2 v / 8 + 1

/-- The low `n` digits of `v`, the least significant first: digit j is `(v div 256^j) mod 256` (R18). -/
def toDigits : Nat → Nat → List Byte
  | 0, _ => []
  | n + 1, v => BitVec.ofNat 8 v :: toDigits n (v / 256)

/-! ## Buffer registers and MOD -/

/-- The one way a buffer register is written. -/
def State.setBuf (s : State) (i : BufId) (b : Buffer) : State := { s with bufs := s.bufs.set i b }

/-- The buffer that holds `v` in canonical form: its digits, then unspecified ones up to the capacity (R18, U1). -/
def canonicalBuffer (cap draw v : Nat) : Buffer where
  digits := toDigits (digitCount v) v ++ freeDigits draw (digitCount v) (cap - digitCount v)
  len := digitCount v

/-- `setval(i, v)` (R18). -/
def State.setval (s : State) (i : BufId) (v : Nat) : State :=
  { s.setBuf i (canonicalBuffer s.cap s.draws v) with draws := s.draws + 1 }

/-- MOD becomes a copy of the buffer's significant digits; the digits above are unspecified (R201, U3). -/
def State.installModulus (s : State) (b : Buffer) : State :=
  { s with
    modulus := { digits := b.significant ++ freeDigits s.draws b.len (s.cap - b.len), len := b.len, valid := true }
    draws := s.draws + 1 }

/-- A host write of LENi: no digit changes (R44). -/
def State.setLen (s : State) (i : BufId) (n : Nat) : State := s.setBuf i { s.buf i with len := n }

/-- A host write of a buffer digit: the length does not change (R74). -/
def State.setDigit (s : State) (i : BufId) (j : Nat) (d : Byte) : State :=
  s.setBuf i { s.buf i with digits := (s.buf i).digits.set j d }

/-! ## The life of a command -/

/-- Accepting command `w` (R84). -/
def State.accept (s : State) (w : Word) : State :=
  { s with pend := some w, done := false, err := false, errcode := .none }

/-- Successful completion: ERR and ERRCODE stay as acceptance left them (R245). -/
def State.complete (s : State) : State := { s with done := true, pend := none }

/-- Error completion: this machine's one way of taking an exception. No state but STATUS changes, nothing is saved and
control goes nowhere (R20, R240, R244). There is no return from it: the host writes the next command (R249). -/
def State.failWith (s : State) (c : ErrCode) : State :=
  { s with errcode := c, err := true, done := true, pend := none }

/-- `raise Error(code)` (R20). -/
def raise (c : ErrCode) (s : State) : Result := .next (s.failWith c)

/-- A command ends well with its writes done (R245). -/
def finish (s : State) : Result := .next s.complete

/-- The code of a decode error (R122, R123). -/
def decodeErrCode : DecodeError → ErrCode
  | .illegalOpcode => .illegalOpcode
  | .reservedField => .reservedField

/-! ## The host and reset -/

/-- A refused access sets HERR (R77 to R81). -/
def State.refuseAccess (s : State) : State := { s with herr := true }

/-- A read returns `v` to the host. -/
def State.answerRead (s : State) (v : Word) : State := { s with reads := v :: s.reads }

/-- The reset event (R280, R281): every item at its value of R54, a pending command abandoned. -/
def State.takeReset (s : State) : State := State.atReset s.cap s.draws s.schedule s.reads

end Sys2Proof.Machine
end

