-- ==== Sys2Proof/Machine/ShortArith.lean ====
section
/-! DEFINITION. NOP, MAC and SDIV (40_short_arith.md), and SDIV's reference loop (R146). -/

namespace Sys2Proof.Machine

/-- NOP (R141). -/
def execNop (s : State) : Result := finish s

/-- `multiplyAccumulate`: the low and the high digit of `a * b + c + carry`, computed exactly (R142). -/
def macStep (a b c carry : Byte) : Byte × Byte :=
  let t := a.toNat * b.toNat + c.toNat + carry.toNat
  (BitVec.ofNat 8 t, BitVec.ofNat 8 (t / 256))

/-- MAC a, b, c (R142). -/
def execMac (a b c : Byte) (s : State) : Result :=
  finish { s with res := (macStep a b c s.carry).1, carry := (macStep a b c s.carry).2 }

/-- `shortDivide`: quotient and remainder of the two-digit value `(hi, lo)` by `dv` (R144). -/
def sdivStep (hi lo dv : Byte) : Byte × Byte :=
  let t := hi.toNat * 256 + lo.toNat
  (BitVec.ofNat 8 (t / dv.toNat), BitVec.ofNat 8 (t % dv.toNat))

/-- SDIV lo, dv (R144). -/
def execSdiv (lo dv : Byte) (s : State) : Result :=
  if dv.toNat ≤ s.rem.toNat then raise .sdivRange s
  else finish { s with res := (sdivStep s.rem lo dv).1, rem := (sdivStep s.rem lo dv).2 }

/-! ## The reference loop of SDIV (R146) -/

/-- One iteration: shift in the next bit of the low digit and subtract the divisor once where it fits. The pair is
the quotient so far and the partial remainder. -/
def restoringStep (dv : Nat) (qr : Nat × Nat) (bit : Bool) : Nat × Nat :=
  let r := 2 * qr.2 + bit.toNat
  if dv ≤ r then (2 * qr.1 + 1, r - dv) else (2 * qr.1, r)

/-- The eight iterations, the high bit first: quotient and remainder. -/
def restoringDivide (hi lo dv : Byte) : Nat × Nat :=
  (digitBits lo).foldl (restoringStep dv.toNat) (0, hi.toNat)

end Sys2Proof.Machine
end

