-- ==== Sys2Proof/Machine/MultiPrecision.lean ====
section
/-! DEFINITION. MUL, SHL, SHR and REDUCE (41_multiprecision.md). Each lists its checks in the order of R246 and makes
them before any write (R243). The schoolbook procedure of MUL (R163) stands at the end, that of REDUCE in
AlgorithmD.lean; the results are fixed by value (R161, R180). -/

namespace Sys2Proof.Machine

/-- MUL Bd, Ba, Bb (R161). -/
def execMul (d a b : BufId) (s : State) : Result :=
  if d = a ∨ d = b then raise .aliased s
  else if !s.canonical a || !s.canonical b then raise .noncanonical s
  else if s.cap < s.len a + s.len b then raise .capacity s
  else finish (s.setval d (s.val a * s.val b))

/-- The top digit of a buffer of nonzero length. -/
def Buffer.topDigit (b : Buffer) : Byte := b.digits.getD (b.len - 1) 0#8

/-- SHL Bd, n (R164). -/
def execShl (d : BufId) (n : ShiftCount) (s : State) : Result :=
  if !s.canonical d then raise .noncanonical s
  else if n.val = 0 ∨ s.len d = 0 then finish s
  else if s.len d = s.cap ∧ (s.buf d).topDigit.toNat / 2 ^ (8 - n.val) ≠ 0 then raise .capacity s
  else finish (s.setval d (s.val d * 2 ^ n.val))

/-- SHR Bd, n (R165). -/
def execShr (d : BufId) (n : ShiftCount) (s : State) : Result :=
  if !s.canonical d then raise .noncanonical s
  else if n.val = 0 ∨ s.len d = 0 then finish s
  else finish (s.setval d (s.val d / 2 ^ n.val))

/-- REDUCE Bd, Ba (R170, R171). -/
def execReduce (d a : BufId) (s : State) : Result :=
  if d = a then raise .aliased s
  else if !s.canonical d || !s.canonical a then raise .noncanonical s
  else if s.len a < 2 then raise .divisorShort s
  else if s.len d < s.len a then finish s
  else finish (s.setval d (s.val d % s.val a))

/-! ## The reference procedure of MUL (R163) -/

/-- The inner pass: `as * bj` is added into the result from the current position on, carrying by `macStep`, and the
last carry is stored above it. -/
def mulPass (bj : Byte) : List Byte → List Byte → Byte → List Byte
  | [], [], _ => []
  | [], _ :: rs, carry => carry :: rs
  | _ :: _, [], _ => []
  | a :: as, r :: rs, carry => (macStep a bj r carry).1 :: mulPass bj as rs (macStep a bj r carry).2

/-- One pass for each digit of `b`, each one position further up. -/
def mulPasses (as : List Byte) : List Byte → List Byte → List Byte
  | [], rs => rs
  | bj :: bs, rs =>
    match mulPass bj as rs 0#8 with
    | [] => []
    | r :: rs' => r :: mulPasses as bs rs'

/-- The `sa + sb` result digits of schoolbook multiplication. -/
def schoolbook (as bs : List Byte) : List Byte :=
  mulPasses as bs (List.replicate (as.length + bs.length) 0#8)

/-- Its result length: one less than `sa + sb` when the top digit is 0. -/
def schoolbookLen (as bs : List Byte) : Nat :=
  if (schoolbook as bs).getD (as.length + bs.length - 1) 0#8 ≠ 0#8 then as.length + bs.length
  else as.length + bs.length - 1

end Sys2Proof.Machine
end

