-- ==== Sys2Proof/Machine/Modular.lean ====
section
/-! DEFINITION. SETMOD, MODMUL and MODEXP (42_modular.md). MODEXP computes by the spec's square-and-multiply controller
(R206), because the power itself is too large to write out; that it is `base ^ e mod N` is an obligation (log 9). -/

namespace Sys2Proof.Machine

/-- SETMOD Ba (R201). -/
def execSetmod (a : BufId) (s : State) : Result :=
  if !s.canonical a then raise .noncanonical s
  else if s.len a < 2 then raise .divisorShort s
  else finish (s.installModulus (s.buf a))

/-- MODMUL Bd, Ba (R202). -/
def execModmul (d a : BufId) (s : State) : Result :=
  if !s.modulus.valid then raise .modulusUnset s
  else if !s.canonical d || !s.canonical a then raise .noncanonical s
  else finish (s.setval d (s.val d * s.val a % s.modVal))

/-- One exponent bit of the controller: square once the first set bit has been seen, then multiply by the base
where the bit is 1 (R206). The pair is the accumulator and "first set bit seen". -/
def modExpStep (base N : Nat) (st : Nat × Bool) (bit : Bool) : Nat × Bool :=
  let acc := if st.2 then st.1 * st.1 % N else st.1
  if bit then (acc * base % N, true) else (acc, st.2)

/-- The controller of R206 over the exponent's digits. -/
def modExp (base N : Nat) (exponent : List Byte) : Nat :=
  ((exponentBits exponent).foldl (modExpStep base N) (1, false)).1

/-- MODEXP Bd, Ba, Bb (R205); the exponent's digits are read as they are stored (R208). -/
def execModexp (d a b : BufId) (s : State) : Result :=
  if !s.modulus.valid then raise .modulusUnset s
  else if d = a ∨ d = b then raise .aliased s
  else if !s.canonical a then raise .noncanonical s
  else finish (s.setval d (modExp (s.val a) s.modVal (s.buf b).significant))

end Sys2Proof.Machine
end

