-- ==== Sys2Proof/Machine/Dispatch.lean ====
section
/-! DEFINITION. One arm per command (R112, R125). -/

namespace Sys2Proof.Machine

def exec (i : Instr) (s : State) : Host.Outcome State Fault Refusal :=
  match i with
  | .nop => Sys2Proof.Machine.execNop s
  | .mac a b c => Sys2Proof.Machine.execMac a b c s
  | .sdiv lo dv => Sys2Proof.Machine.execSdiv lo dv s
  | .mul d a b => Sys2Proof.Machine.execMul d a b s
  | .shl d n => Sys2Proof.Machine.execShl d n s
  | .shr d n => Sys2Proof.Machine.execShr d n s
  | .reduce d a => Sys2Proof.Machine.execReduce d a s
  | .setmod a => Sys2Proof.Machine.execSetmod a s
  | .modmul d a => Sys2Proof.Machine.execModmul d a s
  | .modexp d a b => Sys2Proof.Machine.execModexp d a b s

end Sys2Proof.Machine
end

