-- ==== Sys2Proof/Machine/Port.lean ====
section
/-! DEFINITION. The host port (20_memory.md): the address map, host reads and host writes. -/

namespace Sys2Proof.Machine

/-- An item of the address map (R71). -/
inductive PortItem where
  | config
  | status
  | cmd
  | scalar
  | mlen
  | len (i : BufId)
  /-- Digit `j` of buffer register `i`. -/
  | digit (i : BufId) (j : Nat)
  /-- Digit `j` of MOD. -/
  | modDigit (j : Nat)
deriving DecidableEq, Repr

/-- The register region, 0x0000 to 0x0FFF, at an aligned address (R71); none where the address is reserved. -/
def registerItem (a : Nat) : Option PortItem :=
  if a = 0x0000 then some .config
  else if a = 0x0004 then some .status
  else if a = 0x0008 then some .cmd
  else if a = 0x000C then some .scalar
  else if a = 0x0010 then some .mlen
  else if 0x0040 ≤ a ∧ a < 0x0060 then some (.len (Fin.ofNat 8 ((a - 0x0040) / 4)))
  else none

/-- The digit region, 0x1000 to 0x9FFF: eight buffer windows and the MOD window of 4096 bytes (R71, R74 to R76); none
where the digit index is at or above CAP. -/
def digitItem (cap a : Nat) : Option PortItem :=
  if a % 0x1000 < cap then
    if a < 0x9000 then some (.digit (Fin.ofNat 8 (a / 0x1000 - 1)) (a % 0x1000))
    else some (.modDigit (a % 0x1000))
  else none

/-- The item an access of `n` bytes at `addr` reaches; none where the address is reserved (R77) or the width or
alignment is wrong for its region (R72, R73, R78). -/
def portItem (cap : Nat) (addr : PortAddr) (n : Nat) : Option PortItem :=
  if addr.toNat < 0x1000 then
    if n = 4 ∧ addr.toNat % 4 = 0 then registerItem addr.toNat else none
  else if addr.toNat < 0xA000 then
    if n = 1 then digitItem cap addr.toNat else none
  else none

/-- What a read of an item returns (R36, R37, R40, R44, R45, R74, R76, R85). -/
def readItem (s : State) : PortItem → Word
  | .config => s.configWord
  | .status => s.statusWord
  | .cmd => 0#32
  | .scalar => s.scalarWord
  | .mlen => BitVec.ofNat 32 s.modulus.len
  | .len i => BitVec.ofNat 32 (s.len i)
  | .digit i j => ((s.buf i).digits.getD j 0#8).setWidth 32
  | .modDigit j => (s.modulus.digits.getD j 0#8).setWidth 32

/-- While a command is pending the host may read CONFIG and STATUS and nothing else (R79). -/
def readableWhileBusy : PortItem → Bool
  | .config => true
  | .status => true
  | _ => false

/-- `MemRead(addr, n)` (R19). A refused read returns 0 and sets HERR (R77 to R79). -/
def hostRead (s : State) (addr : PortAddr) (n : Nat) : State :=
  match portItem s.cap addr n with
  | none => s.refuseAccess.answerRead 0#32
  | some it =>
    if s.busy && !readableWhileBusy it then s.refuseAccess.answerRead 0#32
    else s.answerRead (readItem s it)

/-- The effect of an idle write on an item (R80 to R84, R44, R74). -/
def writeItem (s : State) (v : Word) : PortItem → State
  | .config => s.refuseAccess
  | .status => s.clearStatus v
  | .cmd => s.accept v
  | .scalar => s.setScalars v
  | .mlen => s.refuseAccess
  | .len i => if v.toNat ≤ s.cap then s.setLen i v.toNat else s.refuseAccess
  | .digit i j => s.setDigit i j (v.extractLsb' 0 8)
  | .modDigit _ => s.refuseAccess

/-- `MemWrite(addr, n, v)` (R19). Every write is refused while a command is pending (R79). -/
def hostWrite (s : State) (addr : PortAddr) (n : Nat) (v : Word) : State :=
  if s.busy then s.refuseAccess
  else
    match portItem s.cap addr n with
    | none => s.refuseAccess
    | some it => writeItem s v it

end Sys2Proof.Machine
end

