-- ==== Sys2Proof/Machine/Step.lean ====
section
/-! DEFINITION. One step of the machine (R257). -/

namespace Sys2Proof.Machine

/-- The engine's step: with a command pending, decode it and execute it in full, a decode error being an error
completion (R125, R244); with none, the engine has no step and nothing changes (R257, log 5). -/
def engineStep (s : State) : Result :=
  match s.pend with
  | none => .next s
  | some w =>
    match decode w with
    | .error e => raise (decodeErrCode e) s
    | .ok i => exec i s

/-- An event of the schedule, already taken off it. -/
def takeEvent (e : Event) (s : State) : Result :=
  match e with
  | .engine => engineStep s
  | .read addr n => .next (hostRead s addr n)
  | .write addr n v => .next (hostWrite s addr n v)
  | .reset => .next s.takeReset

/-- One step: the next event of the schedule, or the engine's step where none is left, which is the spec's weak
fairness (R257, log 16). -/
def step (s : State) : Host.Outcome State Fault Refusal :=
  match s.schedule with
  | [] => engineStep s
  | e :: rest => takeEvent e { s with schedule := rest }

/-- `s` with the table word accepted as the next command and the engine's turn next (R84, log 5): the machine fetches
nothing (R93), a command being the word the host writes to CMD. -/
def State.withFetchWord (s : State) (nbits w : Nat) : State :=
  { s.accept (tableWord nbits w) with schedule := .engine :: s.schedule }

end Sys2Proof.Machine
end

