-- ==== Sys2Proof/Machine/AlgorithmD.lean ====
section
/-! DEFINITION. The reference procedure of REDUCE, Knuth's normalized long division (R181 to R187). A digit array is held as
the number it stands for; digit k of it is `digitOf x k`. Nothing here is architectural state (R52, R180): the file
is stated equal to the remainder REDUCE writes. -/

namespace Sys2Proof.Machine.AlgorithmD

/-- Digit `k` of an array held as a number. -/
def digitOf (x k : Nat) : Nat := x / 256 ^ k % 256

/-- `msb(x)`: the index of the top set bit of `x > 0` (R181). -/
def msb (x : Nat) : Nat := Nat.log2 x

/-- Step 1: the normalization count for a divisor of `n` digits (R181). -/
def normCount (b n : Nat) : Nat := 7 - msb (digitOf b (n - 1))

/-- Step 2: the estimate of quotient digit `j` and its partial remainder (R182). -/
def estimate (u v n j : Nat) : Nat × Nat :=
  if digitOf u (j + n) = digitOf v (n - 1) then
    (255, digitOf u (j + n - 1) + digitOf v (n - 1))
  else
    ((digitOf u (j + n) * 256 + digitOf u (j + n - 1)) / digitOf v (n - 1),
      (digitOf u (j + n) * 256 + digitOf u (j + n - 1)) % digitOf v (n - 1))

/-- Step 3's loop test (R183). -/
def tooHigh (u v n j : Nat) (qr : Nat × Nat) : Bool :=
  qr.2 < 256 && qr.2 * 256 + digitOf u (j + n - 2) < qr.1 * digitOf v (n - 2)

/-- Step 3's loop body (R183). -/
def lower (v n : Nat) (qr : Nat × Nat) : Nat × Nat := (qr.1 - 1, qr.2 + digitOf v (n - 1))

/-- Step 3: the correction loop with a bound on its passes (R183). -/
def correct (u v n j : Nat) : Nat → Nat × Nat → Nat × Nat
  | 0, qr => qr
  | k + 1, qr =>
    if tooHigh u v n j qr then correct u v n j k (lower v n qr) else qr

/-- The quotient digit's estimate after step 3. The loop ends by itself within 2 passes (R183, R186); the bound of 256
passes lets it. -/
def corrected (u v n j : Nat) : Nat := (correct u v n j 256 (estimate u v n j)).1

/-- The window `u[j .. j+n]` (R184). -/
def window (u n j : Nat) : Nat := u / 256 ^ j % 256 ^ (n + 1)

/-- Step 4: the trial subtraction, with the divisor added back once when it borrows (R184). -/
def subtractWindow (w v qhat : Nat) : Int :=
  if (w : Int) - qhat * v < 0 then (w : Int) - qhat * v + v else (w : Int) - qhat * v

/-- The window `u[j .. j+n]` replaced by the digits of `w` (R184). -/
def putWindow (u n j w : Nat) : Nat :=
  u % 256 ^ j + 256 ^ j * (w % 256 ^ (n + 1)) + 256 ^ (j + n + 1) * (u / 256 ^ (j + n + 1))

/-- Steps 2 to 4 at position `j`. -/
def divideAt (u v n j : Nat) : Nat :=
  putWindow u n j (subtractWindow (window u n j) v (corrected u v n j)).toNat

/-- Positions `k - 1` down to 0. -/
def divideDown (v n : Nat) : Nat → Nat → Nat
  | 0, u => u
  | k + 1, u => divideDown v n k (divideAt u v n k)

/-- The remainder of the `sd`-digit dividend `a` by the `n`-digit divisor `b` (R181 to R185): normalize, divide at positions
`sd - n` down to 0, take the low `n` digits and denormalize. -/
def remainder (a b sd n : Nat) : Nat :=
  divideDown (b * 2 ^ normCount b n) n (sd - n + 1) (a * 2 ^ normCount b n) % 256 ^ n / 2 ^ normCount b n

end Sys2Proof.Machine.AlgorithmD
end

