-- ==== Sys2Proof/Safety.lean ====
section
/-! DEFINITION. The terms claims use: the invariant of the machine, the states a run can reach, how a command
ends and what it leaves alone, which error applies to a command word, and when two states differ only in unspecified
digits. -/

namespace Sys2Proof.Machine

/-- The invariant of the machine. -/
structure Inv (s : State) : Prop where
  /-- `2 <= CAP <= 4096` (R9). -/
  cap_range : Config.minCap ≤ s.cap ∧ s.cap ≤ Config.maxCap
  /-- Every buffer register has CAP digits (R30). -/
  buf_digits : ∀ i, (s.buf i).digits.length = s.cap
  /-- `B[i].len <= CAP` (R31). -/
  buf_len : ∀ i, s.len i ≤ s.cap
  /-- MOD has CAP digits (R35). -/
  mod_digits : s.modulus.digits.length = s.cap
  /-- `MOD.len <= CAP` (R35). -/
  mod_len : s.modulus.len ≤ s.cap
  /-- A valid MOD is canonical and has length 2 or more (R35). -/
  mod_valid : s.modulus.valid = true → isCanonical s.modulus.digits s.modulus.len = true ∧ 2 ≤ s.modulus.len
  /-- MLEN is 0 until a modulus is installed (R54, R201). -/
  mod_unset : s.modulus.valid = false → s.modulus.len = 0
  /-- ERR is 1 exactly when ERRCODE is not 0 (R48). -/
  err_code : s.err = true ↔ s.errcode ≠ .none
  /-- While BUSY, DONE and ERR are 0 (R47, R48, R79, R84). -/
  busy_clear : s.busy = true → s.done = false ∧ s.err = false

/-- The invariant as a check that can be evaluated (`Laws.inv_of_check`). -/
def invCheck (s : State) : Bool :=
  decide (Config.minCap ≤ s.cap ∧ s.cap ≤ Config.maxCap) &&
  decide (∀ i : BufId, (s.buf i).digits.length = s.cap) &&
  decide (∀ i : BufId, s.len i ≤ s.cap) &&
  decide (s.modulus.digits.length = s.cap) &&
  decide (s.modulus.len ≤ s.cap) &&
  decide (s.modulus.valid = true → isCanonical s.modulus.digits s.modulus.len = true ∧ 2 ≤ s.modulus.len) &&
  decide (s.modulus.valid = false → s.modulus.len = 0) &&
  decide (s.err = true ↔ s.errcode ≠ .none) &&
  decide (s.busy = true → s.done = false ∧ s.err = false)

/-- Every digit array has CAP entries: the one form in which equal digit contents are equal data (log 13). -/
abbrev DigitStore.wf (s : State) : Prop :=
  (∀ i : BufId, (s.buf i).digits.length = s.cap) ∧ s.modulus.digits.length = s.cap

/-- The states of a machine of capacity `cap` that a run from a reset can reach, whatever the host does (R257): the
schedule a run starts with is any list. -/
inductive Reachable (cap : Nat) : State → Prop where
  | reset (draw : Nat) (schedule : List Event) (reads : List Word) : Reachable cap (State.atReset cap draw schedule reads)
  | step {s t : State} : Reachable cap s → Machine.step s = .next t → Reachable cap t

/-- The error completion of a command (R244): BUSY 0, DONE 1, ERR 1, ERRCODE the code, and nothing else changed. -/
def errorCompletion (c : ErrCode) (s : State) : Result :=
  .next { s with errcode := c, err := true, done := true, pend := none }

/-- A successful completion with no other effect (R245): BUSY 0 and DONE 1. -/
def plainCompletion (s : State) : Result := .next { s with done := true, pend := none }

/-- How the words of one opcode decode (R122, R125): to the command of their fields where every bit under `mask` is 0, and to a
reserved-field error otherwise. -/
def EncodedAs (opc : Byte) (mask : Word) (f : Word → Instr) : Prop :=
  ∀ w : Word, opcodeOf w = opc → decode w = if w &&& mask = 0#32 then .ok (f w) else .error .reservedField

/-- How a successful command leaves STATUS (R245): BUSY 0, DONE 1, the rest as it was. -/
def CompletesWell (s t : State) : Prop :=
  t.busy = false ∧ t.done = true ∧ t.err = s.err ∧ t.errcode = s.errcode ∧ t.herr = s.herr

/-- RES, CARRY and REM are unchanged. -/
def KeepsScalars (s t : State) : Prop := t.res = s.res ∧ t.carry = s.carry ∧ t.rem = s.rem

/-- CAP, the events to come and what the host has read are unchanged. -/
def KeepsSurroundings (s t : State) : Prop := t.cap = s.cap ∧ t.schedule = s.schedule ∧ t.reads = s.reads

/-- Every digit and length of every buffer register is unchanged. -/
def KeepsBuffers (s t : State) : Prop := ∀ k, t.buf k = s.buf k

/-- Everything but buffer register `d`, STATUS and the draw counter is unchanged: every digit and length of the other buffers, MOD
and the scalars (R33, R89). -/
def KeepsAllButBuffer (d : BufId) (s t : State) : Prop :=
  (∀ k, k ≠ d → t.buf k = s.buf k) ∧ t.modulus = s.modulus ∧ KeepsScalars s t ∧ KeepsSurroundings s t

/-- The engine's turn comes next, with command word `w` pending. -/
def EngineTurn (s : State) (w : Word) (rest : List Event) : Prop := s.pend = some w ∧ s.schedule = .engine :: rest

/-- The outcome of a read that is refused (R77 to R79): 0 to the host, HERR set, nothing else. -/
def readRefused (s : State) (rest : List Event) : Result :=
  .next { s with schedule := rest, herr := true, reads := 0#32 :: s.reads }

/-- The outcome of a read that returns `v`: nothing else changes (R88). -/
def readReturns (s : State) (rest : List Event) (v : Word) : Result :=
  .next { s with schedule := rest, reads := v :: s.reads }

/-- The outcome of a write that is refused (R77 to R81): dropped, HERR set, nothing else. -/
def writeRefused (s : State) (rest : List Event) : Result := .next { s with schedule := rest, herr := true }

/-- The port address of digit `j` of buffer register `i` (R71). -/
def digitAddr (i : BufId) (j : Nat) : PortAddr := BitVec.ofNat 16 (0x1000 + 0x1000 * i.val + j)

/-- The port address of digit `j` of MOD (R71). -/
def modDigitAddr (j : Nat) : PortAddr := BitVec.ofNat 16 (0x9000 + j)

/-- The port address of LENi (R71). -/
def lenAddr (i : BufId) : PortAddr := BitVec.ofNat 16 (0x0040 + 4 * i.val)

/-- The reserved addresses of R71, in a machine of capacity `cap`. -/
def ReservedAddr (cap : Nat) (addr : PortAddr) : Prop :=
  0x0014 ≤ addr.toNat ∧ addr.toNat < 0x0040 ∨ 0x0060 ≤ addr.toNat ∧ addr.toNat < 0x1000 ∨
    0x1000 ≤ addr.toNat ∧ addr.toNat < 0xA000 ∧ cap ≤ addr.toNat % 0x1000 ∨ 0xA000 ≤ addr.toNat

/-- A width or alignment no region allows (R72, R73): in the register region anything but 4 bytes at a multiple of 4, in
the digit region anything but 1 byte. -/
def WrongShape (addr : PortAddr) (n : Nat) : Prop :=
  addr.toNat < 0x1000 ∧ ¬(n = 4 ∧ addr.toNat % 4 = 0) ∨ 0x1000 ≤ addr.toNat ∧ addr.toNat < 0xA000 ∧ n ≠ 1

/-- The buffer register a command writes (R33). -/
def writtenBuffer : Instr → Option BufId
  | .nop => none
  | .mac _ _ _ => none
  | .sdiv _ _ => none
  | .mul d _ _ => some d
  | .shl d _ => some d
  | .shr d _ => some d
  | .reduce d _ => some d
  | .setmod _ => none
  | .modmul d _ => some d
  | .modexp d _ _ => some d

/-- The assigned opcodes and the reserved bits of each (R112 to R119). -/
def reservedBits : List (Byte × Word) :=
  [(0x00#8, 0x00FFFFFF#32), (0x01#8, 0x00000000#32), (0x02#8, 0x00FF0000#32), (0x10#8, 0x00888FFF#32),
   (0x11#8, 0x008FFFF8#32), (0x12#8, 0x008FFFF8#32), (0x13#8, 0x0088FFFF#32), (0x20#8, 0x00F8FFFF#32),
   (0x21#8, 0x0088FFFF#32), (0x22#8, 0x00888FFF#32)]

/-- When each error applies to a command word, whatever other errors do (R242): its cause there, for the commands
listed there, the operands read by their bit positions (R125). -/
def ErrorApplies (c : ErrCode) (w : Word) (s : State) : Prop :=
  match c with
  | .none => False
  | .illegalOpcode => ∀ e ∈ reservedBits, e.1 ≠ opcodeOf w
  | .reservedField => ∃ e ∈ reservedBits, e.1 = opcodeOf w ∧ w &&& e.2 ≠ 0#32
  | .modulusUnset => opcodeOf w ∈ [0x21#8, 0x22#8] ∧ s.modulus.valid = false
  | .aliased =>
    opcodeOf w ∈ [0x10#8, 0x22#8] ∧ (fieldRD w = fieldRA w ∨ fieldRD w = fieldRB w) ∨
      opcodeOf w = 0x13#8 ∧ fieldRD w = fieldRA w
  | .noncanonical =>
    opcodeOf w = 0x10#8 ∧ (s.canonical (fieldRA w) = false ∨ s.canonical (fieldRB w) = false) ∨
      opcodeOf w ∈ [0x11#8, 0x12#8] ∧ s.canonical (fieldRD w) = false ∨
      opcodeOf w ∈ [0x13#8, 0x21#8] ∧ (s.canonical (fieldRD w) = false ∨ s.canonical (fieldRA w) = false) ∨
      opcodeOf w ∈ [0x20#8, 0x22#8] ∧ s.canonical (fieldRA w) = false
  | .divisorShort => opcodeOf w ∈ [0x13#8, 0x20#8] ∧ s.len (fieldRA w) < 2
  | .sdivRange => opcodeOf w = 0x02#8 ∧ (fieldDV w).toNat ≤ s.rem.toNat
  | .capacity =>
    opcodeOf w = 0x10#8 ∧ s.cap < s.len (fieldRA w) + s.len (fieldRB w) ∨
      opcodeOf w = 0x11#8 ∧ 256 ^ s.cap ≤ s.val (fieldRD w) * 2 ^ (fieldSH w).val

/-- The order in which errors are reported (R246). -/
def errorPriority : List ErrCode :=
  [.illegalOpcode, .reservedField, .modulusUnset, .aliased, .noncanonical, .divisorShort, .sdivRange, .capacity]

/-- `c` applies to the command and nothing before it in the priority order does (R246). -/
def ReportedError (c : ErrCode) (w : Word) (s : State) : Prop :=
  ∃ before after, errorPriority = before ++ c :: after ∧ ErrorApplies c w s ∧ ∀ b ∈ before, ¬ErrorApplies b w s

/-- Two states that agree in everything but digits at or above a length (R55) and the draws taken. -/
def SameButStaleDigits (s t : State) : Prop :=
  (∀ i, (s.buf i).significant = (t.buf i).significant ∧ s.len i = t.len i) ∧
  s.modulus.digits.take s.modulus.len = t.modulus.digits.take t.modulus.len ∧
  s.modulus.len = t.modulus.len ∧ s.modulus.valid = t.modulus.valid ∧
  KeepsScalars s t ∧ KeepsSurroundings s t ∧
  s.done = t.done ∧ s.err = t.err ∧ s.herr = t.herr ∧ s.errcode = t.errcode ∧ s.pend = t.pend

end Sys2Proof.Machine
end

