-- ==== Sys2Proof/Certificates/Slice0/Obligations.lean ====
section
/-! DEFINITION. The statements for the provers. Where a statement says how a step answers, the events that come
after are any list `rest`. -/

open Sys2Proof Sys2Proof.Machine

/-! ## Reset and the invariant -/

/-- The values R54 gives, for every capacity and whatever the host does next; the digits are left free (R54, R280). -/
def Obligations.ResetStateHasTheResetValues : Prop :=
  ∀ (cap draw : Nat) (sch : List Event) (rd : List Word),
    let s := State.atReset cap draw sch rd
    (∀ i, s.len i = 0) ∧ s.modulus.valid = false ∧ s.modulus.len = 0 ∧ s.res = 0#8 ∧ s.carry = 0#8 ∧ s.rem = 0#8 ∧
      s.statusWord = 0#32 ∧ s.scalarWord = 0#32 ∧ s.pend = none ∧ s.cap = cap ∧
      s.configWord.extractLsb' 0 16 = BitVec.ofNat 16 cap ∧ s.configWord.extractLsb' 16 16 = 0x0108#16

/-- The reset event gives every item its value of R54 whether or not a command is pending, and the pending command is
abandoned (R280, R281). CAP, the events to come and what the host has read stay (log 18). -/
def Obligations.ResetEventAbandonsThePendingCommand : Prop :=
  ∀ (s : State) (rest : List Event), s.schedule = .reset :: rest →
    ∃ t, step s = .next t ∧ (∀ i, t.len i = 0) ∧ t.modulus.valid = false ∧ t.modulus.len = 0 ∧ t.res = 0#8 ∧
      t.carry = 0#8 ∧ t.rem = 0#8 ∧ t.statusWord = 0#32 ∧ t.pend = none ∧ t.cap = s.cap ∧ t.schedule = rest ∧
      t.reads = s.reads

/-- The invariant holds after reset: of `State.reset`, and of a machine of any capacity R9 allows. -/
def Obligations.ResetMeetsInv : Prop :=
  Inv State.reset ∧
    ∀ (cap draw : Nat) (sch : List Event) (rd : List Word), 2 ≤ cap → cap ≤ 4096 → Inv (State.atReset cap draw sch rd)

/-- Every step keeps the invariant, from every state that meets it. -/
def Obligations.StepKeepsInv : Prop :=
  ∀ s t : State, Inv s → step s = .next t → Inv t

/-- `B[i].len <= CAP` in every state a run can reach (R31). -/
def Obligations.ReachableLengthsWithinCap : Prop :=
  ∀ (cap : Nat) (s : State), 2 ≤ cap → cap ≤ 4096 → Reachable cap s → ∀ i, s.len i ≤ cap

/-- When MOD is valid its value is at least 256 (R35). -/
def Obligations.ValidModulusIsAtLeast256 : Prop :=
  ∀ s : State, Inv s → s.modulus.valid = true → 256 ≤ s.modVal

/-! ## Encoding -/

/-- Decoding an encoded command gives it back, for every command and operand. -/
def Obligations.DecodeOfEncode : Prop :=
  ∀ i : Instr, decode (encode i) = .ok i

/-- A word that decodes is the encoding of what it decodes to: no bit of it is ignored. -/
def Obligations.EncodeOfDecode : Prop :=
  ∀ (w : Word) (i : Instr), decode w = .ok i → encode i = w

/-- The worked encodings of R128, in both directions. -/
def Obligations.WorkedEncodings : Prop :=
  (decode 0x10201000#32 = .ok (.mul 2 0 1) ∧ encode (.mul 2 0 1) = 0x10201000#32) ∧
  (decode 0x13230000#32 = .ok (.reduce 2 3) ∧ encode (.reduce 2 3) = 0x13230000#32) ∧
  (decode 0x20000000#32 = .ok (.setmod 0) ∧ encode (.setmod 0) = 0x20000000#32) ∧
  (decode 0x22312000#32 = .ok (.modexp 3 1 2) ∧ encode (.modexp 3 1 2) = 0x22312000#32) ∧
  (decode 0x11500003#32 = .ok (.shl 5 3) ∧ encode (.shl 5 3) = 0x11500003#32) ∧
  (decode 0x01FFFFFF#32 = .ok (.mac 0xFF 0xFF 0xFF) ∧ encode (.mac 0xFF 0xFF 0xFF) = 0x01FFFFFF#32) ∧
  (decode 0x02000734#32 = .ok (.sdiv 0x34 0x07) ∧ encode (.sdiv 0x34 0x07) = 0x02000734#32)

/-- The syntax table of R126 on operands in range, and an error on any operand out of range. -/
def Obligations.AssemblyTableEncodings : Prop :=
  (∀ x : Asm, x.wellFormed = false → x.encode = none) ∧
  Asm.nop.encode = some 0x00000000#32 ∧
  (∀ a b c, a < 256 → b < 256 → c < 256 →
    (Asm.mac a b c).encode = some (BitVec.ofNat 32 (0x01000000 ||| a <<< 16 ||| b <<< 8 ||| c))) ∧
  (∀ lo dv, lo < 256 → dv < 256 → (Asm.sdiv lo dv).encode = some (BitVec.ofNat 32 (0x02000000 ||| dv <<< 8 ||| lo))) ∧
  (∀ d a b, d < 8 → a < 8 → b < 8 →
    (Asm.mul d a b).encode = some (BitVec.ofNat 32 (0x10000000 ||| d <<< 20 ||| a <<< 16 ||| b <<< 12))) ∧
  (∀ d n, d < 8 → n < 8 → (Asm.shl d n).encode = some (BitVec.ofNat 32 (0x11000000 ||| d <<< 20 ||| n))) ∧
  (∀ d n, d < 8 → n < 8 → (Asm.shr d n).encode = some (BitVec.ofNat 32 (0x12000000 ||| d <<< 20 ||| n))) ∧
  (∀ d a, d < 8 → a < 8 → (Asm.reduce d a).encode = some (BitVec.ofNat 32 (0x13000000 ||| d <<< 20 ||| a <<< 16))) ∧
  (∀ a, a < 8 → (Asm.setmod a).encode = some (BitVec.ofNat 32 (0x20000000 ||| a <<< 16))) ∧
  (∀ d a, d < 8 → a < 8 → (Asm.modmul d a).encode = some (BitVec.ofNat 32 (0x21000000 ||| d <<< 20 ||| a <<< 16))) ∧
  (∀ d a b, d < 8 → a < 8 → b < 8 →
    (Asm.modexp d a b).encode = some (BitVec.ofNat 32 (0x22000000 ||| d <<< 20 ||| a <<< 16 ||| b <<< 12)))

/-- The pseudo-instructions are the words of their expansions, and CFLUSH moves CARRY to RES and clears it (R127). -/
def Obligations.PseudoInstructionsExpand : Prop :=
  (∀ d a, (Asm.sqr d a).encode = (Asm.mul d a a).encode) ∧
  (∀ d, (Asm.modsqr d).encode = (Asm.modmul d d).encode) ∧
  Asm.cflush.encode = (Asm.mac 0 0 0).encode ∧
  ∀ s : State, exec (.mac 0 0 0) s = .next { s with res := s.carry, carry := 0#8, done := true, pend := none }

/-- An unassigned opcode ends the command with ILLEGAL_OPCODE and no other effect, whatever its other bits (R123). -/
def Obligations.UnassignedOpcodeIsIllegal : Prop :=
  ∀ (s : State) (w : Word) (rest : List Event), EngineTurn s w rest →
    (0x03 ≤ (opcodeOf w).toNat ∧ (opcodeOf w).toNat ≤ 0x0F ∨ 0x14 ≤ (opcodeOf w).toNat ∧ (opcodeOf w).toNat ≤ 0x1F ∨
      0x23 ≤ (opcodeOf w).toNat) →
    step s = errorCompletion .illegalOpcode { s with schedule := rest }

/-- For an assigned opcode, a reserved bit that is 1 ends the command with RESERVED_FIELD and no other effect (R122). -/
def Obligations.ReservedBitIsRefused : Prop :=
  ∀ (s : State) (w : Word) (rest : List Event) (opc : Byte) (mask : Word), EngineTurn s w rest →
    (opc, mask) ∈ reservedBits → opcodeOf w = opc → w &&& mask ≠ 0#32 →
    step s = errorCompletion .reservedField { s with schedule := rest }

/-! ## The step -/

/-- With a word pending that decodes to `i`, the engine's step is `exec` of `i`: at the engine's turn, and where the schedule is
empty (R125, R257; log 16). -/
def Obligations.StepRunsTheDecodedCommand : Prop :=
  ∀ (s : State) (w : Word) (i : Instr), s.pend = some w → decode w = .ok i →
    (∀ rest, s.schedule = .engine :: rest → step s = exec i { s with schedule := rest }) ∧
    (s.schedule = [] → step s = exec i s)

/-- With no command pending the engine has no step: its turn changes nothing, and a machine with nothing to come stays as
it is (R257; log 5). -/
def Obligations.IdleEngineChangesNothing : Prop :=
  ∀ s : State, s.busy = false →
    (∀ rest, s.schedule = .engine :: rest → step s = .next { s with schedule := rest }) ∧
    (s.schedule = [] → step s = .next s)

/-- Every step of every state has a next state: no trap, no stuck state (R240; log 11). -/
def Obligations.EveryStepHasANextState : Prop :=
  ∀ s : State, ∃ t, step s = .next t

/-- Every command ends in one step, leaving the engine idle with DONE set (R240, R257). -/
def Obligations.EveryCommandEndsIdle : Prop :=
  ∀ (i : Instr) (s : State), ∃ t, exec i s = .next t ∧ t.busy = false ∧ t.done = true

/-- A pending command is executed after finitely many steps (R257, R291): where no reset comes, within one step more than the
events to come the machine is idle with DONE set. R257 gives weak fairness and no bound; the bound is the model's choice, from
its finite schedule and the engine's step where that is empty (log 16). -/
def Obligations.PendingCommandCompletes : Prop :=
  ∀ s : State, s.busy = true → (∀ e ∈ s.schedule, e ≠ .reset) →
    ∃ k t, k ≤ s.schedule.length + 1 ∧ Host.Core.run core k s = .next t ∧ t.busy = false ∧ t.done = true

/-- The outcome of every command word in every state: the first error that applies in the order of R246, with no state but
STATUS changed (R244), and a successful completion where none applies (R245). -/
def Obligations.FirstApplicableErrorIsReported : Prop :=
  ∀ (s : State) (w : Word) (rest : List Event), Inv s → EngineTurn s w rest →
    (∀ c, ReportedError c w s → step s = errorCompletion c { s with schedule := rest }) ∧
    ((∀ c, ¬ErrorApplies c w s) →
      ∃ t, step s = .next t ∧ t.busy = false ∧ t.done = true ∧ t.err = false ∧ t.errcode = .none ∧ t.herr = s.herr)

/-! ## Short arithmetic -/

/-- NOP (R141): nothing but the STATUS completion. -/
def Obligations.NopOnlyCompletes : Prop :=
  EncodedAs 0x00#8 0x00FFFFFF#32 (fun _ => .nop) ∧ ∀ s : State, exec .nop s = plainCompletion s

/-- MAC (R142, R143): RES and CARRY are the low and high digit of the exact `A * B + C + CARRY`; REM and all else stay; every word of
the opcode is a command. -/
def Obligations.MacMultipliesAndAccumulates : Prop :=
  EncodedAs 0x01#8 0x00000000#32 (fun w => .mac (fieldA w) (fieldB w) (fieldC w)) ∧
  ∀ (s : State) (a b c : Byte), ∃ r k : Byte,
    exec (.mac a b c) s = .next { s with res := r, carry := k, done := true, pend := none } ∧
    r.toNat + 256 * k.toNat = a.toNat * b.toNat + c.toNat + s.carry.toNat ∧
    a.toNat * b.toNat + c.toNat + s.carry.toNat ≤ 65535

/-- SDIV (R144): SDIV_RANGE exactly when not `DV > REM`, and otherwise the quotient, which fits one digit, in RES and
the remainder in REM; CARRY and all else stay. -/
def Obligations.SdivDividesTwoDigitsByOne : Prop :=
  EncodedAs 0x02#8 0x00FF0000#32 (fun w => .sdiv (fieldLO w) (fieldDV w)) ∧
  ∀ (s : State) (lo dv : Byte),
    (¬dv.toNat > s.rem.toNat → exec (.sdiv lo dv) s = errorCompletion .sdivRange s) ∧
    (dv.toNat > s.rem.toNat → ∃ q r : Byte,
      exec (.sdiv lo dv) s = .next { s with res := q, rem := r, done := true, pend := none } ∧
      q.toNat = (s.rem.toNat * 256 + lo.toNat) / dv.toNat ∧ r.toNat = (s.rem.toNat * 256 + lo.toNat) % dv.toNat)

/-- The eight-iteration restoring loop of R146 gives the quotient and remainder of R144. -/
def Obligations.RestoringLoopIsDivision : Prop :=
  ∀ hi lo dv : Byte, hi.toNat < dv.toNat →
    restoringDivide hi lo dv =
      ((hi.toNat * 256 + lo.toNat) / dv.toNat, (hi.toNat * 256 + lo.toNat) % dv.toNat)

/-! ## Multi-precision commands -/

/-- MUL (R161): its errors in order, and otherwise the product in canonical form; the sources and all else stay. -/
def Obligations.MulWritesTheProduct : Prop :=
  EncodedAs 0x10#8 0x00888FFF#32 (fun w => .mul (fieldRD w) (fieldRA w) (fieldRB w)) ∧
  ∀ (s : State) (d a b : BufId),
    (d = a ∨ d = b → exec (.mul d a b) s = errorCompletion .aliased s) ∧
    (d ≠ a → d ≠ b → s.canonical a = false ∨ s.canonical b = false →
      exec (.mul d a b) s = errorCompletion .noncanonical s) ∧
    (d ≠ a → d ≠ b → s.canonical a = true → s.canonical b = true → s.len a + s.len b > s.cap →
      exec (.mul d a b) s = errorCompletion .capacity s) ∧
    (d ≠ a → d ≠ b → s.canonical a = true → s.canonical b = true → s.len a + s.len b ≤ s.cap →
      ∃ t, exec (.mul d a b) s = .next t ∧ t.val d = s.val a * s.val b ∧ t.canonical d = true ∧
        CompletesWell s t ∧ KeepsAllButBuffer d s t)

/-- The product's length (R162): zero for a zero operand, and otherwise `sa + sb` or `sa + sb - 1` as the top digit is nonzero or
zero. -/
def Obligations.MulLengthLaw : Prop :=
  ∀ (s t : State) (d a b : BufId), d ≠ a → d ≠ b → s.canonical a = true → s.canonical b = true →
    s.len a + s.len b ≤ s.cap → exec (.mul d a b) s = .next t →
    (s.len a = 0 ∨ s.len b = 0 → t.len d = 0) ∧
    (s.len a ≠ 0 → s.len b ≠ 0 →
      256 ^ (s.len a + s.len b - 2) ≤ s.val a * s.val b ∧ s.val a * s.val b < 256 ^ (s.len a + s.len b) ∧
      t.len d = if s.val a * s.val b / 256 ^ (s.len a + s.len b - 1) ≠ 0 then s.len a + s.len b
        else s.len a + s.len b - 1)

/-- Schoolbook multiplication (R163) gives the product's digits, and for operands with nonzero top digits its length rule gives
the product's digit count. -/
def Obligations.SchoolbookIsTheProduct : Prop :=
  ∀ as bs : List Byte,
    (schoolbook as bs).length = as.length + bs.length ∧
    digitsVal (schoolbook as bs) = digitsVal as * digitsVal bs ∧
    (as.getD (as.length - 1) 0#8 ≠ 0#8 → bs.getD (bs.length - 1) 0#8 ≠ 0#8 →
      schoolbookLen as bs = digitCount (digitsVal as * digitsVal bs))

/-- SHL (R164): its errors in order, no change for a count or a value of zero, and otherwise `val * 2^n` in canonical form; all
else stays. -/
def Obligations.ShlMultipliesByAPowerOfTwo : Prop :=
  EncodedAs 0x11#8 0x008FFFF8#32 (fun w => .shl (fieldRD w) (fieldSH w)) ∧
  ∀ (s : State) (d : BufId) (n : ShiftCount),
    (s.canonical d = false → exec (.shl d n) s = errorCompletion .noncanonical s) ∧
    (s.canonical d = true → n.val = 0 ∨ s.len d = 0 → exec (.shl d n) s = plainCompletion s) ∧
    (s.canonical d = true → n.val ≠ 0 → s.len d ≠ 0 → s.len d = s.cap →
      (s.buf d).topDigit.toNat / 2 ^ (8 - n.val) ≠ 0 → exec (.shl d n) s = errorCompletion .capacity s) ∧
    (s.canonical d = true → n.val ≠ 0 → s.len d ≠ 0 →
      ¬(s.len d = s.cap ∧ (s.buf d).topDigit.toNat / 2 ^ (8 - n.val) ≠ 0) →
      ∃ t, exec (.shl d n) s = .next t ∧ t.val d = s.val d * 2 ^ n.val ∧ t.canonical d = true ∧
        (t.len d = s.len d ∨ t.len d = s.len d + 1) ∧ CompletesWell s t ∧ KeepsAllButBuffer d s t)

/-- SHR (R165): its error, no change for a count or a value of zero, and otherwise `val div 2^n` in canonical form, at most
one digit shorter; all else stays. -/
def Obligations.ShrDividesByAPowerOfTwo : Prop :=
  EncodedAs 0x12#8 0x008FFFF8#32 (fun w => .shr (fieldRD w) (fieldSH w)) ∧
  ∀ (s : State) (d : BufId) (n : ShiftCount),
    (s.canonical d = false → exec (.shr d n) s = errorCompletion .noncanonical s) ∧
    (s.canonical d = true → n.val = 0 ∨ s.len d = 0 → exec (.shr d n) s = plainCompletion s) ∧
    (s.canonical d = true → n.val ≠ 0 → s.len d ≠ 0 →
      ∃ t, exec (.shr d n) s = .next t ∧ t.val d = s.val d / 2 ^ n.val ∧ t.canonical d = true ∧
        (t.len d = s.len d ∨ t.len d + 1 = s.len d) ∧ CompletesWell s t ∧ KeepsAllButBuffer d s t)

/-- A shift left that succeeds is undone by the shift right of the same count (R164, R165: "rule R164 reversed"). -/
def Obligations.ShrUndoesShl : Prop :=
  ∀ (s t : State) (d : BufId) (n : ShiftCount), s.err = false → exec (.shl d n) s = .next t → t.err = false →
    ∃ u, exec (.shr d n) t = .next u ∧ u.val d = s.val d ∧ u.len d = s.len d ∧ u.err = false

/-- REDUCE (R170 to R173): its errors in order, no change for a shorter dividend, and otherwise the remainder in canonical form;
the divisor and all else stay. -/
def Obligations.ReduceWritesTheRemainder : Prop :=
  EncodedAs 0x13#8 0x0088FFFF#32 (fun w => .reduce (fieldRD w) (fieldRA w)) ∧
  ∀ (s : State) (d a : BufId),
    (d = a → exec (.reduce d a) s = errorCompletion .aliased s) ∧
    (d ≠ a → s.canonical d = false ∨ s.canonical a = false →
      exec (.reduce d a) s = errorCompletion .noncanonical s) ∧
    (d ≠ a → s.canonical d = true → s.canonical a = true → s.len a < 2 →
      exec (.reduce d a) s = errorCompletion .divisorShort s) ∧
    (d ≠ a → s.canonical d = true → s.canonical a = true → 2 ≤ s.len a → s.len d < s.len a →
      exec (.reduce d a) s = plainCompletion s ∧ s.val d % s.val a = s.val d) ∧
    (d ≠ a → s.canonical d = true → s.canonical a = true → 2 ≤ s.len a → s.len a ≤ s.len d →
      ∃ t, exec (.reduce d a) s = .next t ∧ t.val d = s.val d % s.val a ∧ t.val d < s.val a ∧ t.canonical d = true ∧
        t.buf a = s.buf a ∧ CompletesWell s t ∧ KeepsAllButBuffer d s t)

/-- Algorithm D (R181 to R185) computes the remainder REDUCE writes, for every dividend of `sd` digits and every divisor of `n`
digits with a nonzero top digit, `2 <= n <= sd`. -/
def Obligations.AlgorithmDIsTheRemainder : Prop :=
  ∀ a b sd n : Nat, 2 ≤ n → n ≤ sd → a < 256 ^ sd → 256 ^ (n - 1) ≤ b → b < 256 ^ n →
    AlgorithmD.remainder a b sd n = a % b

/-- The bounds of R186 and R187 at one position, for a normalized divisor `v` of `n` digits and a window below `256 * v`: the
window's top digit is at most the divisor's, the estimate exceeds the true digit by at most 2 and never falls short, the loop's
test fails after at most 2 passes, the corrected estimate exceeds the true digit by at most 1, and for `n = 2` by nothing. -/
def Obligations.QuotientEstimateBounds : Prop :=
  ∀ u v n j : Nat, 2 ≤ n → 128 * 256 ^ (n - 1) ≤ v → v < 256 ^ n → AlgorithmD.window u n j < 256 * v →
    let q := AlgorithmD.window u n j / v
    AlgorithmD.digitOf u (j + n) ≤ AlgorithmD.digitOf v (n - 1) ∧
    q ≤ (AlgorithmD.estimate u v n j).1 ∧ (AlgorithmD.estimate u v n j).1 ≤ q + 2 ∧
    AlgorithmD.tooHigh u v n j (AlgorithmD.correct u v n j 2 (AlgorithmD.estimate u v n j)) = false ∧
    q ≤ AlgorithmD.corrected u v n j ∧ AlgorithmD.corrected u v n j ≤ q + 1 ∧
    (n = 2 → AlgorithmD.corrected u v n j = q)

/-! ## Modular commands -/

/-- SETMOD (R201): its errors in order, and otherwise MOD becomes a valid copy of the buffer; the buffers and all else stay. A
later host write, to a buffer or anything else, does not change MOD. -/
def Obligations.SetmodInstallsTheModulus : Prop :=
  EncodedAs 0x20#8 0x00F8FFFF#32 (fun w => .setmod (fieldRA w)) ∧
  (∀ (s : State) (addr : PortAddr) (n : Nat) (v : Word), (hostWrite s addr n v).modulus = s.modulus) ∧
  ∀ (s : State) (a : BufId), Inv s →
    (s.canonical a = false → exec (.setmod a) s = errorCompletion .noncanonical s) ∧
    (s.canonical a = true → s.len a < 2 → exec (.setmod a) s = errorCompletion .divisorShort s) ∧
    (s.canonical a = true → 2 ≤ s.len a →
      ∃ t, exec (.setmod a) s = .next t ∧ t.modulus.valid = true ∧ t.modulus.len = s.len a ∧
        (∀ j, j < s.len a → t.modulus.digits.getD j 0#8 = (s.buf a).digits.getD j 0#8) ∧ t.modVal = s.val a ∧
        CompletesWell s t ∧ KeepsBuffers s t ∧ KeepsScalars s t ∧ KeepsSurroundings s t)

/-- MODMUL (R202): its errors in order, and otherwise the product reduced modulo N, in canonical form and below N; the
multiplier, where it is another register, MOD and all else stay. -/
def Obligations.ModmulWritesTheProductModN : Prop :=
  EncodedAs 0x21#8 0x0088FFFF#32 (fun w => .modmul (fieldRD w) (fieldRA w)) ∧
  ∀ (s : State) (d a : BufId), Inv s →
    (s.modulus.valid = false → exec (.modmul d a) s = errorCompletion .modulusUnset s) ∧
    (s.modulus.valid = true → s.canonical d = false ∨ s.canonical a = false →
      exec (.modmul d a) s = errorCompletion .noncanonical s) ∧
    (s.modulus.valid = true → s.canonical d = true → s.canonical a = true →
      ∃ t, exec (.modmul d a) s = .next t ∧ t.val d = s.val d * s.val a % s.modVal ∧ t.val d < s.modVal ∧
        t.canonical d = true ∧ CompletesWell s t ∧ KeepsAllButBuffer d s t)

/-- MODMUL is MUL and then REDUCE by a register that holds the modulus (R203): where the product fits a register, the two
ways give the same value. -/
def Obligations.ModmulIsMulThenReduce : Prop :=
  ∀ (s : State) (d a p m : BufId), Inv s → s.modulus.valid = true → s.canonical d = true → s.canonical a = true →
    p ≠ d → p ≠ a → p ≠ m → s.val m = s.modVal → s.canonical m = true → s.len d + s.len a ≤ s.cap →
    ∃ t u r, exec (.mul p d a) s = .next t ∧ exec (.reduce p m) t = .next u ∧ exec (.modmul d a) s = .next r ∧
      u.val p = r.val d ∧ u.len p = r.len d ∧ u.err = s.err ∧ r.err = s.err

/-- MODEXP (R205): its errors in order, and otherwise `val(Ba)^e mod N` with `e` the exponent's digits as stored, in canonical
form and below N; base, exponent, MOD and all else stay. The model computes by the controller of R206. -/
def Obligations.ModexpWritesThePowerModN : Prop :=
  EncodedAs 0x22#8 0x00888FFF#32 (fun w => .modexp (fieldRD w) (fieldRA w) (fieldRB w)) ∧
  ∀ (s : State) (d a b : BufId), Inv s →
    (s.modulus.valid = false → exec (.modexp d a b) s = errorCompletion .modulusUnset s) ∧
    (s.modulus.valid = true → d = a ∨ d = b → exec (.modexp d a b) s = errorCompletion .aliased s) ∧
    (s.modulus.valid = true → d ≠ a → d ≠ b → s.canonical a = false →
      exec (.modexp d a b) s = errorCompletion .noncanonical s) ∧
    (s.modulus.valid = true → d ≠ a → d ≠ b → s.canonical a = true →
      ∃ t, exec (.modexp d a b) s = .next t ∧
        t.val d = s.val a ^ digitsVal (s.buf b).significant % s.modVal ∧ t.val d < s.modVal ∧
        t.canonical d = true ∧ CompletesWell s t ∧ KeepsAllButBuffer d s t)

/-! ## What commands leave alone -/

/-- The frame of every command (R33, R89): a buffer it does not write keeps every digit and its length, one it writes is
canonical afterwards or as it was (R32), and CAP, HERR, the events to come and what the host has read stay; MOD
changes only by SETMOD, CARRY only by MAC, REM only by SDIV, RES only by MAC and SDIV. -/
def Obligations.CommandsWriteOnlyTheirItems : Prop :=
  ∀ (i : Instr) (s t : State), exec i s = .next t →
    (∀ k, writtenBuffer i ≠ some k → t.buf k = s.buf k) ∧
    (∀ k, t.buf k = s.buf k ∨ t.canonical k = true) ∧
    KeepsSurroundings s t ∧ t.herr = s.herr ∧
    ((∀ a, i ≠ .setmod a) → t.modulus = s.modulus) ∧
    ((∀ a b c, i ≠ .mac a b c) → t.carry = s.carry) ∧
    ((∀ lo dv, i ≠ .sdiv lo dv) → t.rem = s.rem) ∧
    ((∀ a b c, i ≠ .mac a b c) → (∀ lo dv, i ≠ .sdiv lo dv) → t.res = s.res)

/-- Digits at or above a length are no part of the value (R55): commands run in two states that differ in nothing else give
states that differ in nothing else. -/
def Obligations.StaleDigitsDoNotAffectCommands : Prop :=
  ∀ (i : Instr) (s s' t t' : State), Inv s → Inv s' → SameButStaleDigits s s' → exec i s = .next t →
    exec i s' = .next t' → SameButStaleDigits t t'

/-- MOD changes only by reset and by SETMOD (R35, R200). -/
def Obligations.ModulusChangesOnlyBySetmodOrReset : Prop :=
  ∀ s t : State, step s = .next t → t.modulus ≠ s.modulus →
    (∃ rest, s.schedule = .reset :: rest) ∨
      ∃ w a, s.pend = some w ∧ decode w = .ok (.setmod a) ∧ (s.schedule = [] ∨ ∃ rest, s.schedule = .engine :: rest)

/-- CARRY changes only when the engine executes a MAC, by idle host writes of SCALAR and by reset (R41, R79). -/
def Obligations.CarryChangesOnlyByMacOrHost : Prop :=
  ∀ s t : State, step s = .next t → t.carry ≠ s.carry →
    (∃ rest, s.schedule = .reset :: rest) ∨
      (∃ v rest, s.schedule = .write 0x000C#16 4 v :: rest ∧ s.busy = false) ∨
      ∃ w a b c, s.pend = some w ∧ decode w = .ok (.mac a b c) ∧
        (s.schedule = [] ∨ ∃ rest, s.schedule = .engine :: rest)

/-- REM changes only when the engine executes an SDIV, by idle host writes of SCALAR and by reset (R42, R79). -/
def Obligations.RemChangesOnlyBySdivOrHost : Prop :=
  ∀ s t : State, step s = .next t → t.rem ≠ s.rem →
    (∃ rest, s.schedule = .reset :: rest) ∨
      (∃ v rest, s.schedule = .write 0x000C#16 4 v :: rest ∧ s.busy = false) ∨
      ∃ w lo dv, s.pend = some w ∧ decode w = .ok (.sdiv lo dv) ∧
        (s.schedule = [] ∨ ∃ rest, s.schedule = .engine :: rest)

/-! ## The host port -/

/-- CONFIG (R36) is constant: no step changes CAP, and with it the word; at any time a read gives CAP, NB = 8 and VERSION = 1
in their fields, and a write is dropped and sets HERR. -/
def Obligations.ConfigIsConstant : Prop :=
  (∀ s t : State, step s = .next t → t.cap = s.cap ∧ t.configWord = s.configWord) ∧
  ∀ (s : State) (rest : List Event), Inv s →
    (s.schedule = .read 0x0000#16 4 :: rest → ∃ v : Word, step s = readReturns s rest v ∧
      (v.extractLsb' 0 16).toNat = s.cap ∧ v.extractLsb' 16 8 = 8#8 ∧ v.extractLsb' 24 8 = 0x01#8) ∧
    (∀ x, s.schedule = .write 0x0000#16 4 x :: rest → step s = writeRefused s rest)

/-- STATUS (R37, R50, R82): at any time a read gives the fields in their places and 0 in the reserved bits; an idle write
clears DONE, ERR (and ERRCODE with it) and HERR where its bit is 1, and does nothing else. -/
def Obligations.StatusReadsItsFieldsAndClearsByOnes : Prop :=
  ∀ (s : State) (rest : List Event),
    (s.schedule = .read 0x0004#16 4 :: rest → ∃ v : Word, step s = readReturns s rest v ∧
      v.getLsbD 0 = s.busy ∧ v.getLsbD 1 = s.done ∧ v.getLsbD 2 = s.err ∧ v.getLsbD 3 = s.herr ∧
      v.getLsbD 4 = s.modulus.valid ∧ v.extractLsb' 5 3 = 0#3 ∧ v.extractLsb' 8 4 = s.errcode.code ∧
      v.extractLsb' 12 20 = 0#20) ∧
    (∀ x, s.busy = false → s.schedule = .write 0x0004#16 4 x :: rest →
      step s = .next { s with
        schedule := rest
        done := if x.getLsbD 1 then false else s.done
        err := if x.getLsbD 2 then false else s.err
        errcode := if x.getLsbD 2 then .none else s.errcode
        herr := if x.getLsbD 3 then false else s.herr })

/-- SCALAR (R40, R83) while idle: a read gives RES, CARRY, REM and 0 in its four bytes, and a write sets the three and ignores
the fourth. -/
def Obligations.ScalarReadsAndWritesItsThreeDigits : Prop :=
  ∀ (s : State) (rest : List Event), s.busy = false →
    (s.schedule = .read 0x000C#16 4 :: rest → ∃ v : Word, step s = readReturns s rest v ∧
      v.extractLsb' 0 8 = s.res ∧ v.extractLsb' 8 8 = s.carry ∧ v.extractLsb' 16 8 = s.rem ∧ v.extractLsb' 24 8 = 0#8) ∧
    (∀ x, s.schedule = .write 0x000C#16 4 x :: rest →
      step s = .next { s with
        schedule := rest, res := x.extractLsb' 0 8, carry := x.extractLsb' 8 8, rem := x.extractLsb' 16 8 })

/-- LENi and MLEN (R44, R45, R81) while idle: reads give the length; a write of LENi of at most CAP sets the length and changes no
digit, and a larger one is dropped and sets HERR. -/
def Obligations.LengthRegisters : Prop :=
  ∀ (s : State) (rest : List Event) (i : BufId), Inv s → s.busy = false →
    (s.schedule = .read (lenAddr i) 4 :: rest → ∃ v : Word, step s = readReturns s rest v ∧ v.toNat = s.len i) ∧
    (s.schedule = .read 0x0010#16 4 :: rest → ∃ v : Word, step s = readReturns s rest v ∧ v.toNat = s.modulus.len) ∧
    (∀ x : Word, s.schedule = .write (lenAddr i) 4 x :: rest →
      (x.toNat ≤ s.cap → ∃ t, step s = .next t ∧ t.len i = x.toNat ∧ (t.buf i).digits = (s.buf i).digits ∧
        (∀ k, k ≠ i → t.buf k = s.buf k) ∧ t.statusWord = s.statusWord ∧ t.modulus = s.modulus ∧ KeepsScalars s t ∧
        t.cap = s.cap ∧ t.reads = s.reads ∧ t.schedule = rest) ∧
      (x.toNat > s.cap → step s = writeRefused s rest))

/-- CMD (R39, R84, R85) while idle: a write accepts the command and clears DONE, ERR and ERRCODE, leaving HERR, and the engine's
turn then executes it; a read gives 0 and has no other effect. -/
def Obligations.CmdAcceptsACommand : Prop :=
  ∀ (s : State) (rest : List Event), s.busy = false →
    (∀ w, s.schedule = .write 0x0008#16 4 w :: rest → ∃ t, step s = .next t ∧
      t = { s with schedule := rest, pend := some w, done := false, err := false, errcode := .none } ∧
      ∀ later i, rest = .engine :: later → decode w = .ok i → step t = exec i { t with schedule := later }) ∧
    (s.schedule = .read 0x0008#16 4 :: rest → step s = readReturns s rest 0#32)

/-- Buffer digits (R74) while idle: a read gives the digit; a write sets it to the low byte, and changes no other digit, no
length and nothing else. -/
def Obligations.BufferDigitAccess : Prop :=
  ∀ (s : State) (rest : List Event) (i : BufId) (j : Nat), Inv s → s.busy = false → j < s.cap →
    (s.schedule = .read (digitAddr i j) 1 :: rest →
      step s = readReturns s rest (((s.buf i).digits.getD j 0#8).setWidth 32)) ∧
    (∀ x : Word, s.schedule = .write (digitAddr i j) 1 x :: rest → ∃ t, step s = .next t ∧
      (t.buf i).digits.getD j 0#8 = x.extractLsb' 0 8 ∧
      (∀ k, k ≠ j → (t.buf i).digits.getD k 0#8 = (s.buf i).digits.getD k 0#8) ∧ t.len i = s.len i ∧
      (∀ k, k ≠ i → t.buf k = s.buf k) ∧ t.modulus = s.modulus ∧ KeepsScalars s t ∧ t.statusWord = s.statusWord ∧
      t.cap = s.cap ∧ t.reads = s.reads ∧ t.schedule = rest)

/-- Modulus digits (R76) while idle: a read gives the digit of MOD, and a write is refused at any time. -/
def Obligations.ModulusDigitAccess : Prop :=
  ∀ (s : State) (rest : List Event) (j : Nat), Inv s → j < s.cap →
    (s.busy = false → s.schedule = .read (modDigitAddr j) 1 :: rest →
      step s = readReturns s rest ((s.modulus.digits.getD j 0#8).setWidth 32)) ∧
    (∀ x, s.schedule = .write (modDigitAddr j) 1 x :: rest → step s = writeRefused s rest)

/-- While a command is pending, only 32-bit reads of CONFIG and STATUS are served: any other read returns 0, every write is dropped
(the pending command stays the only one), and HERR is set (R79). -/
def Obligations.BusyPortServesOnlyConfigAndStatus : Prop :=
  ∀ (s : State) (rest : List Event), s.busy = true →
    (s.schedule = .read 0x0000#16 4 :: rest → step s = readReturns s rest s.configWord) ∧
    (s.schedule = .read 0x0004#16 4 :: rest → step s = readReturns s rest s.statusWord) ∧
    (∀ addr n, s.schedule = .read addr n :: rest → ¬(n = 4 ∧ (addr = 0x0000#16 ∨ addr = 0x0004#16)) →
      step s = readRefused s rest) ∧
    (∀ addr n x, s.schedule = .write addr n x :: rest → step s = writeRefused s rest)

/-- An access to a reserved address is refused, whatever its width (R75, R77). -/
def Obligations.ReservedAddressIsRefused : Prop :=
  ∀ (s : State) (rest : List Event) (addr : PortAddr) (n : Nat), ReservedAddr s.cap addr →
    (s.schedule = .read addr n :: rest → step s = readRefused s rest) ∧
    (∀ x, s.schedule = .write addr n x :: rest → step s = writeRefused s rest)

/-- An access of the wrong width or alignment for its region is refused, and no part of it takes effect (R72, R73, R78). -/
def Obligations.WrongWidthOrAlignmentIsRefused : Prop :=
  ∀ (s : State) (rest : List Event) (addr : PortAddr) (n : Nat), WrongShape addr n →
    (s.schedule = .read addr n :: rest → step s = readRefused s rest) ∧
    (∀ x, s.schedule = .write addr n x :: rest → step s = writeRefused s rest)

/-- A write to CONFIG, MLEN or the MOD window is dropped and sets HERR; an idle write to STATUS is no such write and sets no
HERR (R80). -/
def Obligations.ReadOnlyItemsRefuseWrites : Prop :=
  ∀ (s : State) (rest : List Event) (x : Word) (j : Nat), s.cap ≤ 4096 → j < s.cap →
    (s.schedule = .write 0x0000#16 4 x :: rest → step s = writeRefused s rest) ∧
    (s.schedule = .write 0x0010#16 4 x :: rest → step s = writeRefused s rest) ∧
    (s.schedule = .write (modDigitAddr j) 1 x :: rest → step s = writeRefused s rest) ∧
    (s.schedule = .write 0x0004#16 4 x :: rest → s.busy = false → s.herr = false →
      ∃ t, step s = .next t ∧ t.herr = false)

/-- A read changes nothing but HERR, and that only where it is refused (R88); its value goes to the host. -/
def Obligations.ReadsHaveNoOtherEffect : Prop :=
  ∀ (s : State) (rest : List Event) (addr : PortAddr) (n : Nat), s.schedule = .read addr n :: rest →
    step s = readRefused s rest ∨ ∃ v, step s = readReturns s rest v

/-- HERR is sticky: only a write of 1 to its bit of STATUS while idle and reset clear it (R49). -/
def Obligations.HerrIsSticky : Prop :=
  ∀ s t : State, step s = .next t → s.herr = true → t.herr = false →
    (∃ rest, s.schedule = .reset :: rest) ∨
      ∃ v rest, s.schedule = .write 0x0004#16 4 v :: rest ∧ v.getLsbD 3 = true ∧ s.busy = false

/-- Only a refused host access sets HERR, and it touches no command, no result and no other status bit (R49, R97, R247). -/
def Obligations.OnlyRefusedAccessesSetHerr : Prop :=
  ∀ s t : State, step s = .next t → s.herr = false → t.herr = true →
    (∃ addr n rest, s.schedule = .read addr n :: rest ∧ .next t = readRefused s rest) ∨
      ∃ addr n v rest, s.schedule = .write addr n v :: rest ∧ .next t = writeRefused s rest
end

