-- ==== Sys2Proof/Laws/Digits.lean ====
section
/-! SUPPORT. Digits and numbers: the value of a digit list, the digits of a value, and the least digit count. -/

namespace Sys2Proof.Machine

/-! ## The value of a digit list -/

@[simp] theorem digitsVal_nil : digitsVal [] = 0 := rfl

@[simp] theorem digitsVal_cons (d : Byte) (ds : List Byte) : digitsVal (d :: ds) = d.toNat + 256 * digitsVal ds := rfl

theorem digitsVal_append (xs ys : List Byte) :
    digitsVal (xs ++ ys) = digitsVal xs + 256 ^ xs.length * digitsVal ys := by
  induction xs with
  | nil => simp
  | cons x xs ih => simp [ih, pow_succ]; ring

theorem digitsVal_lt (ds : List Byte) : digitsVal ds < 256 ^ ds.length := by
  induction ds with
  | nil => simp
  | cons d ds ih =>
    have h := d.isLt
    simp only [digitsVal_cons, List.length_cons, pow_succ]
    omega

/-- A list with a top digit that is not 0 has at least that weight. -/
theorem le_digitsVal_of_getD (ds : List Byte) (n : Nat) (h : ds.getD n 0#8 ≠ 0#8) : 256 ^ n ≤ digitsVal ds := by
  induction n generalizing ds with
  | zero =>
    cases ds with
    | nil => simp at h
    | cons d ds =>
      have : d.toNat ≠ 0 := fun e => h (by simpa using BitVec.eq_of_toNat_eq (y := 0#8) e)
      simp; omega
  | succ n ih =>
    cases ds with
    | nil => simp at h
    | cons d ds =>
      have := ih ds (by simpa using h)
      simp only [digitsVal_cons, pow_succ]; omega

/-! ## The digits of a value -/

@[simp] theorem toDigits_length (n v : Nat) : (toDigits n v).length = n := by
  induction n generalizing v with
  | zero => rfl
  | succ n ih => simp [toDigits, ih]

theorem digitsVal_toDigits (n v : Nat) (h : v < 256 ^ n) : digitsVal (toDigits n v) = v := by
  induction n generalizing v with
  | zero => simp at h; simp [toDigits, h]
  | succ n ih =>
    have hd : v / 256 < 256 ^ n := by rw [pow_succ] at h; omega
    simp [toDigits, ih _ hd]
    omega

/-- Digit j of a value (R18). -/
theorem toDigits_getD (n v j : Nat) (h : j < n) : (toDigits n v).getD j 0#8 = BitVec.ofNat 8 (v / 256 ^ j) := by
  induction n generalizing v j with
  | zero => omega
  | succ n ih =>
    cases j with
    | zero => simp [toDigits]
    | succ j =>
      have := ih (v / 256) j (by omega)
      simp only [toDigits, List.getD_cons_succ, this, Nat.div_div_eq_div_mul, pow_succ']

/-! ## The least digit count -/

@[simp] theorem digitCount_zero : digitCount 0 = 0 := rfl

/-- `digitCount v` is the least L with `v < 256^L` (R18). -/
theorem digitCount_le_iff (v L : Nat) : digitCount v ≤ L ↔ v < 256 ^ L := by
  unfold digitCount
  split
  · subst_vars; simp
  · rename_i hv
    have hp : (256 : Nat) ^ L = 2 ^ (8 * L) := by rw [pow_mul]; norm_num
    rw [hp, ← Nat.log2_lt hv]
    omega

theorem lt_pow_digitCount (v : Nat) : v < 256 ^ digitCount v := (digitCount_le_iff v _).1 le_rfl

theorem pow_le_of_lt_digitCount (v L : Nat) (h : L < digitCount v) : 256 ^ L ≤ v := by
  by_contra hc
  have := (digitCount_le_iff v L).2 (by omega)
  omega

theorem digitCount_eq_zero_iff (v : Nat) : digitCount v = 0 ↔ v = 0 := by
  have := digitCount_le_iff v 0
  simp at this; omega

/-- The digit count of a number between two powers. -/
theorem digitCount_eq (v L : Nat) (hlo : 256 ^ L ≤ v) (hhi : v < 256 ^ (L + 1)) : digitCount v = L + 1 := by
  have h1 := (digitCount_le_iff v (L + 1)).2 hhi
  have h2 := mt (digitCount_le_iff v L).1 (by omega)
  omega

/-- The top digit of a value's own digits is not 0. -/
theorem toDigits_top_ne_zero (v : Nat) (h : v ≠ 0) :
    (toDigits (digitCount v) v).getD (digitCount v - 1) 0#8 ≠ 0#8 := by
  have h0 : digitCount v ≠ 0 := mt (digitCount_eq_zero_iff v).1 h
  have hlt := lt_pow_digitCount v
  have hle := pow_le_of_lt_digitCount v (digitCount v - 1) (by omega)
  rw [toDigits_getD _ _ _ (by omega)]
  have hp : 0 < 256 ^ (digitCount v - 1) := Nat.pow_pos (by omega)
  have hd : 0 < v / 256 ^ (digitCount v - 1) := Nat.div_pos hle hp
  have hlt' : v / 256 ^ (digitCount v - 1) < 256 := by
    rw [Nat.div_lt_iff_lt_mul hp, ← pow_succ']
    rwa [Nat.sub_add_cancel (by omega)]
  intro e
  have := congrArg BitVec.toNat e
  simp at this
  omega

/-! ## Unspecified digits -/

@[simp] theorem freeDigits_length (draw start count : Nat) : (freeDigits draw start count).length = count := by
  simp [freeDigits]

/-! ## Canonical form and value of a buffer -/

theorem Buffer.val_lt (b : Buffer) : b.val < 256 ^ b.len := by
  refine lt_of_lt_of_le (digitsVal_lt _) (Nat.pow_le_pow_right (by omega) ?_)
  simp [Buffer.significant]

/-- A canonical buffer of length `n + 1` is at least `256^n` (R162's lower bound). -/
theorem Buffer.le_val_of_canonical (b : Buffer) (hc : b.canonical = true) (h : b.len ≠ 0) :
    256 ^ (b.len - 1) ≤ b.val := by
  apply le_digitsVal_of_getD
  simp [Buffer.canonical, isCanonical, h] at hc
  simp [Buffer.significant, List.getD_eq_getElem?_getD, List.getElem?_take]
  rw [if_pos (by omega)]
  simpa using hc

/-- A canonical buffer's length is the digit count of its value (R18). -/
theorem Buffer.len_eq_digitCount (b : Buffer) (hc : b.canonical = true) : b.len = digitCount b.val := by
  by_cases h : b.len = 0
  · have hv : b.val = 0 := by have := b.val_lt; rw [h] at this; simpa using this
    rw [h, hv]; rfl
  · have h1 := b.le_val_of_canonical hc h
    have h2 := b.val_lt
    have := digitCount_eq b.val (b.len - 1) h1 (by rwa [Nat.sub_add_cancel (by omega)])
    omega

/-! ## The canonical write (R18) -/

@[simp] theorem canonicalBuffer_len (cap draw v : Nat) : (canonicalBuffer cap draw v).len = digitCount v := rfl

@[simp] theorem canonicalBuffer_significant (cap draw v : Nat) :
    (canonicalBuffer cap draw v).significant = toDigits (digitCount v) v := by
  simp [Buffer.significant, canonicalBuffer]

@[simp] theorem canonicalBuffer_val (cap draw v : Nat) : (canonicalBuffer cap draw v).val = v := by
  simp [Buffer.val, digitsVal_toDigits _ _ (lt_pow_digitCount v)]

@[simp] theorem canonicalBuffer_canonical (cap draw v : Nat) : (canonicalBuffer cap draw v).canonical = true := by
  by_cases h : v = 0
  · subst h; rfl
  · have ht := toDigits_top_ne_zero v h
    have h0 : digitCount v ≠ 0 := mt (digitCount_eq_zero_iff v).1 h
    have hl : digitCount v - 1 < (toDigits (digitCount v) v).length := by simp; omega
    simp [Buffer.canonical, isCanonical, canonicalBuffer, h0, List.getD_eq_getElem?_getD,
      List.getElem?_append_left hl]
    simpa [List.getD_eq_getElem?_getD] using ht

/-- A value that fits is written into exactly CAP digits. -/
theorem canonicalBuffer_digits_length (cap draw v : Nat) (h : v < 256 ^ cap) :
    (canonicalBuffer cap draw v).digits.length = cap := by
  have := (digitCount_le_iff v cap).2 h
  simp [canonicalBuffer]; omega

theorem canonicalBuffer_len_le (cap draw v : Nat) (h : v < 256 ^ cap) : (canonicalBuffer cap draw v).len ≤ cap :=
  (digitCount_le_iff v cap).2 h

end Sys2Proof.Machine
end

