-- ==== Sys2Proof/Laws/State.lean ====
section
/-! SUPPORT. What each update of the state does to each field and view: one lemma each, true by unfolding. -/

namespace Sys2Proof.Machine

/-! ## setBuf -/

@[simp] theorem State.setBuf_cap (s : State) (i : BufId) (b : Buffer) : (s.setBuf i b).cap = s.cap := rfl
@[simp] theorem State.setBuf_bufs (s : State) (i : BufId) (b : Buffer) : (s.setBuf i b).bufs = s.bufs.set i b := rfl
@[simp] theorem State.setBuf_modulus (s : State) (i : BufId) (b : Buffer) : (s.setBuf i b).modulus = s.modulus := rfl
@[simp] theorem State.setBuf_res (s : State) (i : BufId) (b : Buffer) : (s.setBuf i b).res = s.res := rfl
@[simp] theorem State.setBuf_carry (s : State) (i : BufId) (b : Buffer) : (s.setBuf i b).carry = s.carry := rfl
@[simp] theorem State.setBuf_rem (s : State) (i : BufId) (b : Buffer) : (s.setBuf i b).rem = s.rem := rfl
@[simp] theorem State.setBuf_done (s : State) (i : BufId) (b : Buffer) : (s.setBuf i b).done = s.done := rfl
@[simp] theorem State.setBuf_err (s : State) (i : BufId) (b : Buffer) : (s.setBuf i b).err = s.err := rfl
@[simp] theorem State.setBuf_herr (s : State) (i : BufId) (b : Buffer) : (s.setBuf i b).herr = s.herr := rfl
@[simp] theorem State.setBuf_errcode (s : State) (i : BufId) (b : Buffer) : (s.setBuf i b).errcode = s.errcode := rfl
@[simp] theorem State.setBuf_pend (s : State) (i : BufId) (b : Buffer) : (s.setBuf i b).pend = s.pend := rfl
@[simp] theorem State.setBuf_draws (s : State) (i : BufId) (b : Buffer) : (s.setBuf i b).draws = s.draws := rfl
@[simp] theorem State.setBuf_schedule (s : State) (i : BufId) (b : Buffer) : (s.setBuf i b).schedule = s.schedule := rfl
@[simp] theorem State.setBuf_reads (s : State) (i : BufId) (b : Buffer) : (s.setBuf i b).reads = s.reads := rfl
@[simp] theorem State.setBuf_busy (s : State) (i : BufId) (b : Buffer) : (s.setBuf i b).busy = s.busy := rfl
@[simp] theorem State.setBuf_mvalid (s : State) (i : BufId) (b : Buffer) : (s.setBuf i b).mvalid = s.mvalid := rfl
@[simp] theorem State.setBuf_modVal (s : State) (i : BufId) (b : Buffer) : (s.setBuf i b).modVal = s.modVal := rfl

/-! ## setval -/

@[simp] theorem State.setval_cap (s : State) (i : BufId) (v : Nat) : (s.setval i v).cap = s.cap := rfl
@[simp] theorem State.setval_bufs (s : State) (i : BufId) (v : Nat) : (s.setval i v).bufs = s.bufs.set i (canonicalBuffer s.cap s.draws v) := rfl
@[simp] theorem State.setval_modulus (s : State) (i : BufId) (v : Nat) : (s.setval i v).modulus = s.modulus := rfl
@[simp] theorem State.setval_res (s : State) (i : BufId) (v : Nat) : (s.setval i v).res = s.res := rfl
@[simp] theorem State.setval_carry (s : State) (i : BufId) (v : Nat) : (s.setval i v).carry = s.carry := rfl
@[simp] theorem State.setval_rem (s : State) (i : BufId) (v : Nat) : (s.setval i v).rem = s.rem := rfl
@[simp] theorem State.setval_done (s : State) (i : BufId) (v : Nat) : (s.setval i v).done = s.done := rfl
@[simp] theorem State.setval_err (s : State) (i : BufId) (v : Nat) : (s.setval i v).err = s.err := rfl
@[simp] theorem State.setval_herr (s : State) (i : BufId) (v : Nat) : (s.setval i v).herr = s.herr := rfl
@[simp] theorem State.setval_errcode (s : State) (i : BufId) (v : Nat) : (s.setval i v).errcode = s.errcode := rfl
@[simp] theorem State.setval_pend (s : State) (i : BufId) (v : Nat) : (s.setval i v).pend = s.pend := rfl
@[simp] theorem State.setval_draws (s : State) (i : BufId) (v : Nat) : (s.setval i v).draws = s.draws + 1 := rfl
@[simp] theorem State.setval_schedule (s : State) (i : BufId) (v : Nat) : (s.setval i v).schedule = s.schedule := rfl
@[simp] theorem State.setval_reads (s : State) (i : BufId) (v : Nat) : (s.setval i v).reads = s.reads := rfl
@[simp] theorem State.setval_busy (s : State) (i : BufId) (v : Nat) : (s.setval i v).busy = s.busy := rfl
@[simp] theorem State.setval_mvalid (s : State) (i : BufId) (v : Nat) : (s.setval i v).mvalid = s.mvalid := rfl
@[simp] theorem State.setval_modVal (s : State) (i : BufId) (v : Nat) : (s.setval i v).modVal = s.modVal := rfl

/-! ## installModulus -/

@[simp] theorem State.installModulus_cap (s : State) (b : Buffer) : (s.installModulus b).cap = s.cap := rfl
@[simp] theorem State.installModulus_bufs (s : State) (b : Buffer) : (s.installModulus b).bufs = s.bufs := rfl
@[simp] theorem State.installModulus_modulus (s : State) (b : Buffer) : (s.installModulus b).modulus = { digits := b.significant ++ freeDigits s.draws b.len (s.cap - b.len), len := b.len, valid := true } := rfl
@[simp] theorem State.installModulus_res (s : State) (b : Buffer) : (s.installModulus b).res = s.res := rfl
@[simp] theorem State.installModulus_carry (s : State) (b : Buffer) : (s.installModulus b).carry = s.carry := rfl
@[simp] theorem State.installModulus_rem (s : State) (b : Buffer) : (s.installModulus b).rem = s.rem := rfl
@[simp] theorem State.installModulus_done (s : State) (b : Buffer) : (s.installModulus b).done = s.done := rfl
@[simp] theorem State.installModulus_err (s : State) (b : Buffer) : (s.installModulus b).err = s.err := rfl
@[simp] theorem State.installModulus_herr (s : State) (b : Buffer) : (s.installModulus b).herr = s.herr := rfl
@[simp] theorem State.installModulus_errcode (s : State) (b : Buffer) : (s.installModulus b).errcode = s.errcode := rfl
@[simp] theorem State.installModulus_pend (s : State) (b : Buffer) : (s.installModulus b).pend = s.pend := rfl
@[simp] theorem State.installModulus_draws (s : State) (b : Buffer) : (s.installModulus b).draws = s.draws + 1 := rfl
@[simp] theorem State.installModulus_schedule (s : State) (b : Buffer) : (s.installModulus b).schedule = s.schedule := rfl
@[simp] theorem State.installModulus_reads (s : State) (b : Buffer) : (s.installModulus b).reads = s.reads := rfl
@[simp] theorem State.installModulus_busy (s : State) (b : Buffer) : (s.installModulus b).busy = s.busy := rfl
@[simp] theorem State.installModulus_mvalid (s : State) (b : Buffer) : (s.installModulus b).mvalid = true := rfl
@[simp] theorem State.installModulus_buf (s : State) (b : Buffer) (k : BufId) : (s.installModulus b).buf k = s.buf k := rfl
@[simp] theorem State.installModulus_val (s : State) (b : Buffer) (k : BufId) : (s.installModulus b).val k = s.val k := rfl
@[simp] theorem State.installModulus_len (s : State) (b : Buffer) (k : BufId) : (s.installModulus b).len k = s.len k := rfl
@[simp] theorem State.installModulus_canonical (s : State) (b : Buffer) (k : BufId) : (s.installModulus b).canonical k = s.canonical k := rfl

/-! ## setLen -/

@[simp] theorem State.setLen_cap (s : State) (i : BufId) (n : Nat) : (s.setLen i n).cap = s.cap := rfl
@[simp] theorem State.setLen_bufs (s : State) (i : BufId) (n : Nat) : (s.setLen i n).bufs = s.bufs.set i { s.buf i with len := n } := rfl
@[simp] theorem State.setLen_modulus (s : State) (i : BufId) (n : Nat) : (s.setLen i n).modulus = s.modulus := rfl
@[simp] theorem State.setLen_res (s : State) (i : BufId) (n : Nat) : (s.setLen i n).res = s.res := rfl
@[simp] theorem State.setLen_carry (s : State) (i : BufId) (n : Nat) : (s.setLen i n).carry = s.carry := rfl
@[simp] theorem State.setLen_rem (s : State) (i : BufId) (n : Nat) : (s.setLen i n).rem = s.rem := rfl
@[simp] theorem State.setLen_done (s : State) (i : BufId) (n : Nat) : (s.setLen i n).done = s.done := rfl
@[simp] theorem State.setLen_err (s : State) (i : BufId) (n : Nat) : (s.setLen i n).err = s.err := rfl
@[simp] theorem State.setLen_herr (s : State) (i : BufId) (n : Nat) : (s.setLen i n).herr = s.herr := rfl
@[simp] theorem State.setLen_errcode (s : State) (i : BufId) (n : Nat) : (s.setLen i n).errcode = s.errcode := rfl
@[simp] theorem State.setLen_pend (s : State) (i : BufId) (n : Nat) : (s.setLen i n).pend = s.pend := rfl
@[simp] theorem State.setLen_draws (s : State) (i : BufId) (n : Nat) : (s.setLen i n).draws = s.draws := rfl
@[simp] theorem State.setLen_schedule (s : State) (i : BufId) (n : Nat) : (s.setLen i n).schedule = s.schedule := rfl
@[simp] theorem State.setLen_reads (s : State) (i : BufId) (n : Nat) : (s.setLen i n).reads = s.reads := rfl
@[simp] theorem State.setLen_busy (s : State) (i : BufId) (n : Nat) : (s.setLen i n).busy = s.busy := rfl
@[simp] theorem State.setLen_mvalid (s : State) (i : BufId) (n : Nat) : (s.setLen i n).mvalid = s.mvalid := rfl
@[simp] theorem State.setLen_modVal (s : State) (i : BufId) (n : Nat) : (s.setLen i n).modVal = s.modVal := rfl

/-! ## setDigit -/

@[simp] theorem State.setDigit_cap (s : State) (i : BufId) (j : Nat) (d : Byte) : (s.setDigit i j d).cap = s.cap := rfl
@[simp] theorem State.setDigit_bufs (s : State) (i : BufId) (j : Nat) (d : Byte) : (s.setDigit i j d).bufs = s.bufs.set i { s.buf i with digits := (s.buf i).digits.set j d } := rfl
@[simp] theorem State.setDigit_modulus (s : State) (i : BufId) (j : Nat) (d : Byte) : (s.setDigit i j d).modulus = s.modulus := rfl
@[simp] theorem State.setDigit_res (s : State) (i : BufId) (j : Nat) (d : Byte) : (s.setDigit i j d).res = s.res := rfl
@[simp] theorem State.setDigit_carry (s : State) (i : BufId) (j : Nat) (d : Byte) : (s.setDigit i j d).carry = s.carry := rfl
@[simp] theorem State.setDigit_rem (s : State) (i : BufId) (j : Nat) (d : Byte) : (s.setDigit i j d).rem = s.rem := rfl
@[simp] theorem State.setDigit_done (s : State) (i : BufId) (j : Nat) (d : Byte) : (s.setDigit i j d).done = s.done := rfl
@[simp] theorem State.setDigit_err (s : State) (i : BufId) (j : Nat) (d : Byte) : (s.setDigit i j d).err = s.err := rfl
@[simp] theorem State.setDigit_herr (s : State) (i : BufId) (j : Nat) (d : Byte) : (s.setDigit i j d).herr = s.herr := rfl
@[simp] theorem State.setDigit_errcode (s : State) (i : BufId) (j : Nat) (d : Byte) : (s.setDigit i j d).errcode = s.errcode := rfl
@[simp] theorem State.setDigit_pend (s : State) (i : BufId) (j : Nat) (d : Byte) : (s.setDigit i j d).pend = s.pend := rfl
@[simp] theorem State.setDigit_draws (s : State) (i : BufId) (j : Nat) (d : Byte) : (s.setDigit i j d).draws = s.draws := rfl
@[simp] theorem State.setDigit_schedule (s : State) (i : BufId) (j : Nat) (d : Byte) : (s.setDigit i j d).schedule = s.schedule := rfl
@[simp] theorem State.setDigit_reads (s : State) (i : BufId) (j : Nat) (d : Byte) : (s.setDigit i j d).reads = s.reads := rfl
@[simp] theorem State.setDigit_busy (s : State) (i : BufId) (j : Nat) (d : Byte) : (s.setDigit i j d).busy = s.busy := rfl
@[simp] theorem State.setDigit_mvalid (s : State) (i : BufId) (j : Nat) (d : Byte) : (s.setDigit i j d).mvalid = s.mvalid := rfl
@[simp] theorem State.setDigit_modVal (s : State) (i : BufId) (j : Nat) (d : Byte) : (s.setDigit i j d).modVal = s.modVal := rfl

/-! ## accept -/

@[simp] theorem State.accept_cap (s : State) (w : Word) : (s.accept w).cap = s.cap := rfl
@[simp] theorem State.accept_bufs (s : State) (w : Word) : (s.accept w).bufs = s.bufs := rfl
@[simp] theorem State.accept_modulus (s : State) (w : Word) : (s.accept w).modulus = s.modulus := rfl
@[simp] theorem State.accept_res (s : State) (w : Word) : (s.accept w).res = s.res := rfl
@[simp] theorem State.accept_carry (s : State) (w : Word) : (s.accept w).carry = s.carry := rfl
@[simp] theorem State.accept_rem (s : State) (w : Word) : (s.accept w).rem = s.rem := rfl
@[simp] theorem State.accept_done (s : State) (w : Word) : (s.accept w).done = false := rfl
@[simp] theorem State.accept_err (s : State) (w : Word) : (s.accept w).err = false := rfl
@[simp] theorem State.accept_herr (s : State) (w : Word) : (s.accept w).herr = s.herr := rfl
@[simp] theorem State.accept_errcode (s : State) (w : Word) : (s.accept w).errcode = .none := rfl
@[simp] theorem State.accept_pend (s : State) (w : Word) : (s.accept w).pend = some w := rfl
@[simp] theorem State.accept_draws (s : State) (w : Word) : (s.accept w).draws = s.draws := rfl
@[simp] theorem State.accept_schedule (s : State) (w : Word) : (s.accept w).schedule = s.schedule := rfl
@[simp] theorem State.accept_reads (s : State) (w : Word) : (s.accept w).reads = s.reads := rfl
@[simp] theorem State.accept_busy (s : State) (w : Word) : (s.accept w).busy = true := rfl
@[simp] theorem State.accept_mvalid (s : State) (w : Word) : (s.accept w).mvalid = s.mvalid := rfl
@[simp] theorem State.accept_modVal (s : State) (w : Word) : (s.accept w).modVal = s.modVal := rfl
@[simp] theorem State.accept_buf (s : State) (w : Word) (k : BufId) : (s.accept w).buf k = s.buf k := rfl
@[simp] theorem State.accept_val (s : State) (w : Word) (k : BufId) : (s.accept w).val k = s.val k := rfl
@[simp] theorem State.accept_len (s : State) (w : Word) (k : BufId) : (s.accept w).len k = s.len k := rfl
@[simp] theorem State.accept_canonical (s : State) (w : Word) (k : BufId) : (s.accept w).canonical k = s.canonical k := rfl

/-! ## complete -/

@[simp] theorem State.complete_cap (s : State) : (s.complete).cap = s.cap := rfl
@[simp] theorem State.complete_bufs (s : State) : (s.complete).bufs = s.bufs := rfl
@[simp] theorem State.complete_modulus (s : State) : (s.complete).modulus = s.modulus := rfl
@[simp] theorem State.complete_res (s : State) : (s.complete).res = s.res := rfl
@[simp] theorem State.complete_carry (s : State) : (s.complete).carry = s.carry := rfl
@[simp] theorem State.complete_rem (s : State) : (s.complete).rem = s.rem := rfl
@[simp] theorem State.complete_done (s : State) : (s.complete).done = true := rfl
@[simp] theorem State.complete_err (s : State) : (s.complete).err = s.err := rfl
@[simp] theorem State.complete_herr (s : State) : (s.complete).herr = s.herr := rfl
@[simp] theorem State.complete_errcode (s : State) : (s.complete).errcode = s.errcode := rfl
@[simp] theorem State.complete_pend (s : State) : (s.complete).pend = none := rfl
@[simp] theorem State.complete_draws (s : State) : (s.complete).draws = s.draws := rfl
@[simp] theorem State.complete_schedule (s : State) : (s.complete).schedule = s.schedule := rfl
@[simp] theorem State.complete_reads (s : State) : (s.complete).reads = s.reads := rfl
@[simp] theorem State.complete_busy (s : State) : (s.complete).busy = false := rfl
@[simp] theorem State.complete_mvalid (s : State) : (s.complete).mvalid = s.mvalid := rfl
@[simp] theorem State.complete_modVal (s : State) : (s.complete).modVal = s.modVal := rfl
@[simp] theorem State.complete_buf (s : State) (k : BufId) : (s.complete).buf k = s.buf k := rfl
@[simp] theorem State.complete_val (s : State) (k : BufId) : (s.complete).val k = s.val k := rfl
@[simp] theorem State.complete_len (s : State) (k : BufId) : (s.complete).len k = s.len k := rfl
@[simp] theorem State.complete_canonical (s : State) (k : BufId) : (s.complete).canonical k = s.canonical k := rfl

/-! ## failWith -/

@[simp] theorem State.failWith_cap (s : State) (c : ErrCode) : (s.failWith c).cap = s.cap := rfl
@[simp] theorem State.failWith_bufs (s : State) (c : ErrCode) : (s.failWith c).bufs = s.bufs := rfl
@[simp] theorem State.failWith_modulus (s : State) (c : ErrCode) : (s.failWith c).modulus = s.modulus := rfl
@[simp] theorem State.failWith_res (s : State) (c : ErrCode) : (s.failWith c).res = s.res := rfl
@[simp] theorem State.failWith_carry (s : State) (c : ErrCode) : (s.failWith c).carry = s.carry := rfl
@[simp] theorem State.failWith_rem (s : State) (c : ErrCode) : (s.failWith c).rem = s.rem := rfl
@[simp] theorem State.failWith_done (s : State) (c : ErrCode) : (s.failWith c).done = true := rfl
@[simp] theorem State.failWith_err (s : State) (c : ErrCode) : (s.failWith c).err = true := rfl
@[simp] theorem State.failWith_herr (s : State) (c : ErrCode) : (s.failWith c).herr = s.herr := rfl
@[simp] theorem State.failWith_errcode (s : State) (c : ErrCode) : (s.failWith c).errcode = c := rfl
@[simp] theorem State.failWith_pend (s : State) (c : ErrCode) : (s.failWith c).pend = none := rfl
@[simp] theorem State.failWith_draws (s : State) (c : ErrCode) : (s.failWith c).draws = s.draws := rfl
@[simp] theorem State.failWith_schedule (s : State) (c : ErrCode) : (s.failWith c).schedule = s.schedule := rfl
@[simp] theorem State.failWith_reads (s : State) (c : ErrCode) : (s.failWith c).reads = s.reads := rfl
@[simp] theorem State.failWith_busy (s : State) (c : ErrCode) : (s.failWith c).busy = false := rfl
@[simp] theorem State.failWith_mvalid (s : State) (c : ErrCode) : (s.failWith c).mvalid = s.mvalid := rfl
@[simp] theorem State.failWith_modVal (s : State) (c : ErrCode) : (s.failWith c).modVal = s.modVal := rfl
@[simp] theorem State.failWith_buf (s : State) (c : ErrCode) (k : BufId) : (s.failWith c).buf k = s.buf k := rfl
@[simp] theorem State.failWith_val (s : State) (c : ErrCode) (k : BufId) : (s.failWith c).val k = s.val k := rfl
@[simp] theorem State.failWith_len (s : State) (c : ErrCode) (k : BufId) : (s.failWith c).len k = s.len k := rfl
@[simp] theorem State.failWith_canonical (s : State) (c : ErrCode) (k : BufId) : (s.failWith c).canonical k = s.canonical k := rfl

/-! ## refuseAccess -/

@[simp] theorem State.refuseAccess_cap (s : State) : (s.refuseAccess).cap = s.cap := rfl
@[simp] theorem State.refuseAccess_bufs (s : State) : (s.refuseAccess).bufs = s.bufs := rfl
@[simp] theorem State.refuseAccess_modulus (s : State) : (s.refuseAccess).modulus = s.modulus := rfl
@[simp] theorem State.refuseAccess_res (s : State) : (s.refuseAccess).res = s.res := rfl
@[simp] theorem State.refuseAccess_carry (s : State) : (s.refuseAccess).carry = s.carry := rfl
@[simp] theorem State.refuseAccess_rem (s : State) : (s.refuseAccess).rem = s.rem := rfl
@[simp] theorem State.refuseAccess_done (s : State) : (s.refuseAccess).done = s.done := rfl
@[simp] theorem State.refuseAccess_err (s : State) : (s.refuseAccess).err = s.err := rfl
@[simp] theorem State.refuseAccess_herr (s : State) : (s.refuseAccess).herr = true := rfl
@[simp] theorem State.refuseAccess_errcode (s : State) : (s.refuseAccess).errcode = s.errcode := rfl
@[simp] theorem State.refuseAccess_pend (s : State) : (s.refuseAccess).pend = s.pend := rfl
@[simp] theorem State.refuseAccess_draws (s : State) : (s.refuseAccess).draws = s.draws := rfl
@[simp] theorem State.refuseAccess_schedule (s : State) : (s.refuseAccess).schedule = s.schedule := rfl
@[simp] theorem State.refuseAccess_reads (s : State) : (s.refuseAccess).reads = s.reads := rfl
@[simp] theorem State.refuseAccess_busy (s : State) : (s.refuseAccess).busy = s.busy := rfl
@[simp] theorem State.refuseAccess_mvalid (s : State) : (s.refuseAccess).mvalid = s.mvalid := rfl
@[simp] theorem State.refuseAccess_modVal (s : State) : (s.refuseAccess).modVal = s.modVal := rfl
@[simp] theorem State.refuseAccess_buf (s : State) (k : BufId) : (s.refuseAccess).buf k = s.buf k := rfl
@[simp] theorem State.refuseAccess_val (s : State) (k : BufId) : (s.refuseAccess).val k = s.val k := rfl
@[simp] theorem State.refuseAccess_len (s : State) (k : BufId) : (s.refuseAccess).len k = s.len k := rfl
@[simp] theorem State.refuseAccess_canonical (s : State) (k : BufId) : (s.refuseAccess).canonical k = s.canonical k := rfl

/-! ## answerRead -/

@[simp] theorem State.answerRead_cap (s : State) (v : Word) : (s.answerRead v).cap = s.cap := rfl
@[simp] theorem State.answerRead_bufs (s : State) (v : Word) : (s.answerRead v).bufs = s.bufs := rfl
@[simp] theorem State.answerRead_modulus (s : State) (v : Word) : (s.answerRead v).modulus = s.modulus := rfl
@[simp] theorem State.answerRead_res (s : State) (v : Word) : (s.answerRead v).res = s.res := rfl
@[simp] theorem State.answerRead_carry (s : State) (v : Word) : (s.answerRead v).carry = s.carry := rfl
@[simp] theorem State.answerRead_rem (s : State) (v : Word) : (s.answerRead v).rem = s.rem := rfl
@[simp] theorem State.answerRead_done (s : State) (v : Word) : (s.answerRead v).done = s.done := rfl
@[simp] theorem State.answerRead_err (s : State) (v : Word) : (s.answerRead v).err = s.err := rfl
@[simp] theorem State.answerRead_herr (s : State) (v : Word) : (s.answerRead v).herr = s.herr := rfl
@[simp] theorem State.answerRead_errcode (s : State) (v : Word) : (s.answerRead v).errcode = s.errcode := rfl
@[simp] theorem State.answerRead_pend (s : State) (v : Word) : (s.answerRead v).pend = s.pend := rfl
@[simp] theorem State.answerRead_draws (s : State) (v : Word) : (s.answerRead v).draws = s.draws := rfl
@[simp] theorem State.answerRead_schedule (s : State) (v : Word) : (s.answerRead v).schedule = s.schedule := rfl
@[simp] theorem State.answerRead_reads (s : State) (v : Word) : (s.answerRead v).reads = v :: s.reads := rfl
@[simp] theorem State.answerRead_busy (s : State) (v : Word) : (s.answerRead v).busy = s.busy := rfl
@[simp] theorem State.answerRead_mvalid (s : State) (v : Word) : (s.answerRead v).mvalid = s.mvalid := rfl
@[simp] theorem State.answerRead_modVal (s : State) (v : Word) : (s.answerRead v).modVal = s.modVal := rfl
@[simp] theorem State.answerRead_buf (s : State) (v : Word) (k : BufId) : (s.answerRead v).buf k = s.buf k := rfl
@[simp] theorem State.answerRead_val (s : State) (v : Word) (k : BufId) : (s.answerRead v).val k = s.val k := rfl
@[simp] theorem State.answerRead_len (s : State) (v : Word) (k : BufId) : (s.answerRead v).len k = s.len k := rfl
@[simp] theorem State.answerRead_canonical (s : State) (v : Word) (k : BufId) : (s.answerRead v).canonical k = s.canonical k := rfl

/-! ## clearStatus -/

@[simp] theorem State.clearStatus_cap (s : State) (v : Word) : (s.clearStatus v).cap = s.cap := rfl
@[simp] theorem State.clearStatus_bufs (s : State) (v : Word) : (s.clearStatus v).bufs = s.bufs := rfl
@[simp] theorem State.clearStatus_modulus (s : State) (v : Word) : (s.clearStatus v).modulus = s.modulus := rfl
@[simp] theorem State.clearStatus_res (s : State) (v : Word) : (s.clearStatus v).res = s.res := rfl
@[simp] theorem State.clearStatus_carry (s : State) (v : Word) : (s.clearStatus v).carry = s.carry := rfl
@[simp] theorem State.clearStatus_rem (s : State) (v : Word) : (s.clearStatus v).rem = s.rem := rfl
@[simp] theorem State.clearStatus_done (s : State) (v : Word) : (s.clearStatus v).done = (s.done && !v.getLsbD 1) := rfl
@[simp] theorem State.clearStatus_err (s : State) (v : Word) : (s.clearStatus v).err = (s.err && !v.getLsbD 2) := rfl
@[simp] theorem State.clearStatus_herr (s : State) (v : Word) : (s.clearStatus v).herr = (s.herr && !v.getLsbD 3) := rfl
@[simp] theorem State.clearStatus_errcode (s : State) (v : Word) : (s.clearStatus v).errcode = (if v.getLsbD 2 then .none else s.errcode) := rfl
@[simp] theorem State.clearStatus_pend (s : State) (v : Word) : (s.clearStatus v).pend = s.pend := rfl
@[simp] theorem State.clearStatus_draws (s : State) (v : Word) : (s.clearStatus v).draws = s.draws := rfl
@[simp] theorem State.clearStatus_schedule (s : State) (v : Word) : (s.clearStatus v).schedule = s.schedule := rfl
@[simp] theorem State.clearStatus_reads (s : State) (v : Word) : (s.clearStatus v).reads = s.reads := rfl
@[simp] theorem State.clearStatus_busy (s : State) (v : Word) : (s.clearStatus v).busy = s.busy := rfl
@[simp] theorem State.clearStatus_mvalid (s : State) (v : Word) : (s.clearStatus v).mvalid = s.mvalid := rfl
@[simp] theorem State.clearStatus_modVal (s : State) (v : Word) : (s.clearStatus v).modVal = s.modVal := rfl
@[simp] theorem State.clearStatus_buf (s : State) (v : Word) (k : BufId) : (s.clearStatus v).buf k = s.buf k := rfl
@[simp] theorem State.clearStatus_val (s : State) (v : Word) (k : BufId) : (s.clearStatus v).val k = s.val k := rfl
@[simp] theorem State.clearStatus_len (s : State) (v : Word) (k : BufId) : (s.clearStatus v).len k = s.len k := rfl
@[simp] theorem State.clearStatus_canonical (s : State) (v : Word) (k : BufId) : (s.clearStatus v).canonical k = s.canonical k := rfl

/-! ## setScalars -/

@[simp] theorem State.setScalars_cap (s : State) (v : Word) : (s.setScalars v).cap = s.cap := rfl
@[simp] theorem State.setScalars_bufs (s : State) (v : Word) : (s.setScalars v).bufs = s.bufs := rfl
@[simp] theorem State.setScalars_modulus (s : State) (v : Word) : (s.setScalars v).modulus = s.modulus := rfl
@[simp] theorem State.setScalars_res (s : State) (v : Word) : (s.setScalars v).res = v.extractLsb' 0 8 := rfl
@[simp] theorem State.setScalars_carry (s : State) (v : Word) : (s.setScalars v).carry = v.extractLsb' 8 8 := rfl
@[simp] theorem State.setScalars_rem (s : State) (v : Word) : (s.setScalars v).rem = v.extractLsb' 16 8 := rfl
@[simp] theorem State.setScalars_done (s : State) (v : Word) : (s.setScalars v).done = s.done := rfl
@[simp] theorem State.setScalars_err (s : State) (v : Word) : (s.setScalars v).err = s.err := rfl
@[simp] theorem State.setScalars_herr (s : State) (v : Word) : (s.setScalars v).herr = s.herr := rfl
@[simp] theorem State.setScalars_errcode (s : State) (v : Word) : (s.setScalars v).errcode = s.errcode := rfl
@[simp] theorem State.setScalars_pend (s : State) (v : Word) : (s.setScalars v).pend = s.pend := rfl
@[simp] theorem State.setScalars_draws (s : State) (v : Word) : (s.setScalars v).draws = s.draws := rfl
@[simp] theorem State.setScalars_schedule (s : State) (v : Word) : (s.setScalars v).schedule = s.schedule := rfl
@[simp] theorem State.setScalars_reads (s : State) (v : Word) : (s.setScalars v).reads = s.reads := rfl
@[simp] theorem State.setScalars_busy (s : State) (v : Word) : (s.setScalars v).busy = s.busy := rfl
@[simp] theorem State.setScalars_mvalid (s : State) (v : Word) : (s.setScalars v).mvalid = s.mvalid := rfl
@[simp] theorem State.setScalars_modVal (s : State) (v : Word) : (s.setScalars v).modVal = s.modVal := rfl
@[simp] theorem State.setScalars_buf (s : State) (v : Word) (k : BufId) : (s.setScalars v).buf k = s.buf k := rfl
@[simp] theorem State.setScalars_val (s : State) (v : Word) (k : BufId) : (s.setScalars v).val k = s.val k := rfl
@[simp] theorem State.setScalars_len (s : State) (v : Word) (k : BufId) : (s.setScalars v).len k = s.len k := rfl
@[simp] theorem State.setScalars_canonical (s : State) (v : Word) (k : BufId) : (s.setScalars v).canonical k = s.canonical k := rfl

/-! ## takeReset -/

@[simp] theorem State.takeReset_cap (s : State) : (s.takeReset).cap = s.cap := rfl
@[simp] theorem State.takeReset_modulus (s : State) : (s.takeReset).modulus = { digits := freeDigits (s.draws + 8) 0 s.cap, len := 0, valid := false } := rfl
@[simp] theorem State.takeReset_res (s : State) : (s.takeReset).res = 0#8 := rfl
@[simp] theorem State.takeReset_carry (s : State) : (s.takeReset).carry = 0#8 := rfl
@[simp] theorem State.takeReset_rem (s : State) : (s.takeReset).rem = 0#8 := rfl
@[simp] theorem State.takeReset_done (s : State) : (s.takeReset).done = false := rfl
@[simp] theorem State.takeReset_err (s : State) : (s.takeReset).err = false := rfl
@[simp] theorem State.takeReset_herr (s : State) : (s.takeReset).herr = false := rfl
@[simp] theorem State.takeReset_errcode (s : State) : (s.takeReset).errcode = .none := rfl
@[simp] theorem State.takeReset_pend (s : State) : (s.takeReset).pend = none := rfl
@[simp] theorem State.takeReset_draws (s : State) : (s.takeReset).draws = s.draws + 9 := rfl
@[simp] theorem State.takeReset_schedule (s : State) : (s.takeReset).schedule = s.schedule := rfl
@[simp] theorem State.takeReset_reads (s : State) : (s.takeReset).reads = s.reads := rfl
@[simp] theorem State.takeReset_busy (s : State) : (s.takeReset).busy = false := rfl
@[simp] theorem State.takeReset_mvalid (s : State) : (s.takeReset).mvalid = false := rfl

/-! ## Reading a buffer register after a write -/

/-- A written register reads back. -/
@[simp] theorem State.setBuf_buf_same (s : State) (i : BufId) (b : Buffer) : (s.setBuf i b).buf i = b := by
  simp [State.buf, State.setBuf]

/-- A write to one register leaves every other register alone (R34). -/
theorem State.setBuf_buf_other (s : State) (i k : BufId) (b : Buffer) (h : k ≠ i) : (s.setBuf i b).buf k = s.buf k := by
  have h' : (i : Nat) ≠ k := fun e => h (Fin.ext e.symm)
  simp [State.buf, State.setBuf, h']

/-- Both cases at once. -/
theorem State.setBuf_buf (s : State) (i k : BufId) (b : Buffer) :
    (s.setBuf i b).buf k = if k = i then b else s.buf k := by
  by_cases h : k = i
  · subst h; simp
  · simp [h, State.setBuf_buf_other]

@[simp] theorem State.setval_buf_same (s : State) (i : BufId) (v : Nat) :
    (s.setval i v).buf i = canonicalBuffer s.cap s.draws v :=
  State.setBuf_buf_same s i _

theorem State.setval_buf_other (s : State) (i k : BufId) (v : Nat) (h : k ≠ i) : (s.setval i v).buf k = s.buf k :=
  State.setBuf_buf_other s i k _ h

theorem State.setval_buf (s : State) (i k : BufId) (v : Nat) :
    (s.setval i v).buf k = if k = i then canonicalBuffer s.cap s.draws v else s.buf k :=
  State.setBuf_buf s i k _

theorem State.setLen_buf (s : State) (i k : BufId) (n : Nat) :
    (s.setLen i n).buf k = if k = i then { s.buf i with len := n } else s.buf k :=
  State.setBuf_buf s i k _

theorem State.setDigit_buf (s : State) (i k : BufId) (j : Nat) (d : Byte) :
    (s.setDigit i j d).buf k = if k = i then { s.buf i with digits := (s.buf i).digits.set j d } else s.buf k :=
  State.setBuf_buf s i k _

/-- After a reset every register is empty (R54). -/
theorem State.atReset_buf (cap draw : Nat) (sch : List Event) (rd : List Word) (k : BufId) :
    (State.atReset cap draw sch rd).buf k = resetBuffer cap (draw + k.val) := by
  fin_cases k <;> rfl

@[simp] theorem State.atReset_cap (cap draw : Nat) (sch : List Event) (rd : List Word) :
    (State.atReset cap draw sch rd).cap = cap := rfl

@[simp] theorem State.takeReset_buf (s : State) (k : BufId) :
    s.takeReset.buf k = resetBuffer s.cap (s.draws + k.val) :=
  State.atReset_buf _ _ _ _ k

@[simp] theorem State.atReset_len (cap draw : Nat) (sch : List Event) (rd : List Word) (k : BufId) :
    (State.atReset cap draw sch rd).len k = 0 := by
  simp [State.len, State.atReset_buf, resetBuffer]

end Sys2Proof.Machine
end

