-- ==== Sys2Proof/Laws/Ops.lean ====
section
/-! SUPPORT. One lemma for each shared operation, saying what it does; that every operation keeps the digit store's
form; how `exec` and `step` can answer. -/

namespace Sys2Proof.Machine

/-- The evaluable check gives the invariant. -/
theorem inv_of_check {s : State} (h : invCheck s = true) : Inv s := by
  simp only [invCheck, Bool.and_eq_true, decide_eq_true_eq] at h
  obtain ⟨⟨⟨⟨⟨⟨⟨⟨h1, h2⟩, h3⟩, h4⟩, h5⟩, h6⟩, h7⟩, h8⟩, h9⟩ := h
  exact ⟨h1, h2, h3, h4, h5, h6, h7, h8, h9⟩

theorem Inv.digitStore {s : State} (h : Inv s) : DigitStore.wf s := ⟨h.buf_digits, h.mod_digits⟩

/-! ## The canonical write -/

/-- Everything `setval` does (R18): the destination holds the value in canonical form in CAP digits, its length is the least
that holds the value, and every other register is as it was. -/
theorem setval_spec (s : State) (d : BufId) (v : Nat) (h : v < 256 ^ s.cap) :
    (s.setval d v).val d = v ∧ (s.setval d v).canonical d = true ∧ (s.setval d v).len d = digitCount v ∧
      (s.setval d v).len d ≤ s.cap ∧ ((s.setval d v).buf d).digits.length = s.cap ∧
      ∀ k, k ≠ d → (s.setval d v).buf k = s.buf k := by
  refine ⟨?_, ?_, ?_, ?_, ?_, fun k hk => State.setval_buf_other s d k v hk⟩
  · simp [State.val]
  · simp [State.canonical]
  · simp [State.len]
  · simpa [State.len] using canonicalBuffer_len_le s.cap s.draws v h
  · simpa using canonicalBuffer_digits_length s.cap s.draws v h

/-- Everything `installModulus` does (R201): MOD is a copy of the buffer's digits. -/
theorem installModulus_spec (s : State) (b : Buffer) (hd : b.digits.length = s.cap) (hl : b.len ≤ s.cap) :
    (s.installModulus b).modulus.len = b.len ∧ (s.installModulus b).modulus.valid = true ∧
      (s.installModulus b).modulus.digits.take b.len = b.significant ∧ (s.installModulus b).modVal = b.val ∧
      (s.installModulus b).modulus.digits.length = s.cap := by
  have hs : b.significant.length = b.len := by simp [Buffer.significant]; omega
  refine ⟨rfl, rfl, ?_, ?_, ?_⟩
  · simp [hs]
  · simp [State.modVal, Buffer.val, hs]
  · simp [hs]; omega

/-! ## Every operation keeps the digit store's form -/

theorem setBuf_wf {s : State} (h : DigitStore.wf s) (i : BufId) (b : Buffer) (hb : b.digits.length = s.cap) :
    DigitStore.wf (s.setBuf i b) := by
  refine ⟨fun k => ?_, h.2⟩
  rw [State.setBuf_buf]
  split
  · exact hb
  · exact h.1 k

theorem setval_wf {s : State} (h : DigitStore.wf s) (d : BufId) (v : Nat) (hv : v < 256 ^ s.cap) :
    DigitStore.wf (s.setval d v) := by
  refine ⟨fun k => ?_, h.2⟩
  rw [State.setval_buf]
  split
  · exact canonicalBuffer_digits_length _ _ _ hv
  · exact h.1 k

theorem setLen_wf {s : State} (h : DigitStore.wf s) (i : BufId) (n : Nat) : DigitStore.wf (s.setLen i n) :=
  setBuf_wf h i _ (h.1 i)

theorem setDigit_wf {s : State} (h : DigitStore.wf s) (i : BufId) (j : Nat) (d : Byte) :
    DigitStore.wf (s.setDigit i j d) :=
  setBuf_wf h i _ (by simpa using h.1 i)

theorem installModulus_wf {s : State} (h : DigitStore.wf s) (i : BufId) (hl : s.len i ≤ s.cap) :
    DigitStore.wf (s.installModulus (s.buf i)) :=
  ⟨h.1, (installModulus_spec s (s.buf i) (h.1 i) hl).2.2.2.2⟩

theorem atReset_wf (cap draw : Nat) (sch : List Event) (rd : List Word) :
    DigitStore.wf (State.atReset cap draw sch rd) := by
  refine ⟨fun k => ?_, ?_⟩
  · simp [State.atReset_buf, resetBuffer, State.atReset_cap]
  · simp [State.atReset]

/-- The machine after reset has the digit store's form. -/
theorem reset_wf : DigitStore.wf State.reset := atReset_wf _ _ _ _

/-! ## Reading and writing digits -/

/-- A digit written reads back, and no other digit of the buffer changes (R74). -/
theorem setDigit_getD (s : State) (i : BufId) (j k : Nat) (d : Byte) (hj : j < (s.buf i).digits.length) :
    (((s.setDigit i j d).buf i).digits.getD k 0#8) = if k = j then d else (s.buf i).digits.getD k 0#8 := by
  simp only [State.setDigit, State.setBuf_buf_same, List.getD_eq_getElem?_getD, List.getElem?_set]
  by_cases h : k = j
  · subst h; simp [hj]
  · simp [h, Ne.symm h]

/-! ## How a command and a step can answer -/

/-- A command answers in one of six ways: an error completion, no change, MAC's new RES and CARRY, SDIV's new RES and REM, a
canonical write to the one buffer it may write, or the installation of its operand as the modulus; the last five complete it. -/
theorem exec_cases (i : Instr) (s : State) :
    (∃ c, exec i s = .next (s.failWith c)) ∨ exec i s = .next s.complete ∨
      (∃ a b c, i = .mac a b c ∧ exec i s =
        .next ({ s with res := (macStep a b c s.carry).1, carry := (macStep a b c s.carry).2 } : State).complete) ∨
      (∃ lo dv, i = .sdiv lo dv ∧ s.rem.toNat < dv.toNat ∧ exec i s =
        .next ({ s with res := (sdivStep s.rem lo dv).1, rem := (sdivStep s.rem lo dv).2 } : State).complete) ∨
      (∃ d v, writtenBuffer i = some d ∧ exec i s = .next (s.setval d v).complete) ∨
      (∃ a, i = .setmod a ∧ exec i s = .next (s.installModulus (s.buf a)).complete) := by
  cases i with
  | nop => exact .inr (.inl rfl)
  | mac a b c => exact .inr (.inr (.inl ⟨a, b, c, rfl, rfl⟩))
  | sdiv lo dv =>
    simp only [exec, execSdiv, raise, finish]
    split
    · exact .inl ⟨_, rfl⟩
    · next h => exact .inr (.inr (.inr (.inl ⟨lo, dv, rfl, Nat.lt_of_not_le h, rfl⟩)))
  | mul d a b =>
    simp only [exec, execMul, raise, finish]
    split_ifs
    · exact .inl ⟨_, rfl⟩
    · exact .inl ⟨_, rfl⟩
    · exact .inl ⟨_, rfl⟩
    · exact .inr (.inr (.inr (.inr (.inl ⟨d, _, rfl, rfl⟩))))
  | shl d n =>
    simp only [exec, execShl, raise, finish]
    split_ifs
    · exact .inl ⟨_, rfl⟩
    · exact .inr (.inl rfl)
    · exact .inl ⟨_, rfl⟩
    · exact .inr (.inr (.inr (.inr (.inl ⟨d, _, rfl, rfl⟩))))
  | shr d n =>
    simp only [exec, execShr, raise, finish]
    split_ifs
    · exact .inl ⟨_, rfl⟩
    · exact .inr (.inl rfl)
    · exact .inr (.inr (.inr (.inr (.inl ⟨d, _, rfl, rfl⟩))))
  | reduce d a =>
    simp only [exec, execReduce, raise, finish]
    split_ifs
    · exact .inl ⟨_, rfl⟩
    · exact .inl ⟨_, rfl⟩
    · exact .inl ⟨_, rfl⟩
    · exact .inr (.inl rfl)
    · exact .inr (.inr (.inr (.inr (.inl ⟨d, _, rfl, rfl⟩))))
  | setmod a =>
    simp only [exec, execSetmod, raise, finish]
    split_ifs
    · exact .inl ⟨_, rfl⟩
    · exact .inl ⟨_, rfl⟩
    · exact .inr (.inr (.inr (.inr (.inr ⟨a, rfl, rfl⟩))))
  | modmul d a =>
    simp only [exec, execModmul, raise, finish]
    split_ifs
    · exact .inl ⟨_, rfl⟩
    · exact .inl ⟨_, rfl⟩
    · exact .inr (.inr (.inr (.inr (.inl ⟨d, _, rfl, rfl⟩))))
  | modexp d a b =>
    simp only [exec, execModexp, raise, finish]
    split_ifs
    · exact .inl ⟨_, rfl⟩
    · exact .inl ⟨_, rfl⟩
    · exact .inl ⟨_, rfl⟩
    · exact .inr (.inr (.inr (.inr (.inl ⟨d, _, rfl, rfl⟩))))

/-- A host write is refused, or is one of the five effects of R80 to R84, R44 and R74. -/
theorem hostWrite_cases (s : State) (addr : PortAddr) (n : Nat) (v : Word) :
    hostWrite s addr n v = s.refuseAccess ∨
      s.busy = false ∧ ∃ it, portItem s.cap addr n = some it ∧
        (it = .status ∧ hostWrite s addr n v = s.clearStatus v ∨
          it = .cmd ∧ hostWrite s addr n v = s.accept v ∨
          it = .scalar ∧ hostWrite s addr n v = s.setScalars v ∨
          (∃ i, it = .len i ∧ v.toNat ≤ s.cap ∧ hostWrite s addr n v = s.setLen i v.toNat) ∨
          ∃ i j, it = .digit i j ∧ hostWrite s addr n v = s.setDigit i j (v.extractLsb' 0 8)) := by
  unfold hostWrite
  by_cases hb : s.busy = true
  · exact .inl (by simp [hb])
  · have hb' : s.busy = false := by simpa using hb
    simp only [hb', Bool.false_eq_true, if_false]
    cases hp : portItem s.cap addr n with
    | none => exact .inl (by simp)
    | some it =>
      cases it with
      | config => exact .inl (by simp [writeItem])
      | mlen => exact .inl (by simp [writeItem])
      | modDigit j => exact .inl (by simp [writeItem])
      | status => exact .inr ⟨trivial, _, rfl, .inl ⟨rfl, by simp [writeItem]⟩⟩
      | cmd => exact .inr ⟨trivial, _, rfl, .inr (.inl ⟨rfl, by simp [writeItem]⟩)⟩
      | scalar => exact .inr ⟨trivial, _, rfl, .inr (.inr (.inl ⟨rfl, by simp [writeItem]⟩))⟩
      | len i =>
        by_cases hv : v.toNat ≤ s.cap
        · exact .inr ⟨trivial, _, rfl, .inr (.inr (.inr (.inl ⟨i, rfl, hv, by simp [writeItem, hv]⟩)))⟩
        · exact .inl (by simp [writeItem, hv])
      | digit i j =>
        exact .inr ⟨trivial, _, rfl, .inr (.inr (.inr (.inr ⟨i, j, rfl, by simp [writeItem]⟩)))⟩

/-- A host read records one answer and at most sets HERR (R88). -/
theorem hostRead_cases (s : State) (addr : PortAddr) (n : Nat) :
    hostRead s addr n = s.refuseAccess.answerRead 0#32 ∨ ∃ v, hostRead s addr n = s.answerRead v := by
  unfold hostRead
  split
  · exact .inl rfl
  · split
    · exact .inl rfl
    · exact .inr ⟨_, rfl⟩

/-- What a step is, by the schedule and what is pending (R257). -/
theorem step_cases (s : State) :
    (s.schedule = [] ∧ step s = engineStep s) ∨
      (∃ rest, s.schedule = .engine :: rest ∧ step s = engineStep { s with schedule := rest }) ∨
      (∃ addr n rest, s.schedule = .read addr n :: rest ∧ step s = .next (hostRead { s with schedule := rest } addr n)) ∨
      (∃ addr n v rest, s.schedule = .write addr n v :: rest ∧
        step s = .next (hostWrite { s with schedule := rest } addr n v)) ∨
      (∃ rest, s.schedule = .reset :: rest ∧ step s = .next ({ s with schedule := rest } : State).takeReset) := by
  unfold step
  cases hs : s.schedule with
  | nil => exact .inl ⟨rfl, rfl⟩
  | cons e rest =>
    cases e with
    | engine => exact .inr (.inl ⟨rest, rfl, rfl⟩)
    | read addr n => exact .inr (.inr (.inl ⟨addr, n, rest, rfl, rfl⟩))
    | write addr n v => exact .inr (.inr (.inr (.inl ⟨addr, n, v, rest, rfl, rfl⟩)))
    | reset => exact .inr (.inr (.inr (.inr ⟨rest, rfl, rfl⟩)))

end Sys2Proof.Machine
end

