-- ==== Sys2Proof/Laws/PerInstr.lean ====
section
/-! SUPPORT. Statements for all commands, made one constructor at a time. -/

namespace Sys2Proof.Laws.OperandsInRange

/-- Every command is well formed: its operands' types keep them in the ranges of R126. -/
def Statement (i : Instr) : Prop := i.wellFormed = true

theorem nop : Statement .nop := rfl

theorem mac (a b c : Byte) : Statement (.mac a b c) := by
  simp [Statement, Instr.wellFormed, Instr.toAsm, Asm.wellFormed, digitInRange]
  omega

theorem sdiv (lo dv : Byte) : Statement (.sdiv lo dv) := by
  simp [Statement, Instr.wellFormed, Instr.toAsm, Asm.wellFormed, digitInRange]
  omega

theorem mul (d a b : BufId) : Statement (.mul d a b) := by
  simp [Statement, Instr.wellFormed, Instr.toAsm, Asm.wellFormed, bufInRange]

theorem shl (d : BufId) (n : ShiftCount) : Statement (.shl d n) := by
  simp [Statement, Instr.wellFormed, Instr.toAsm, Asm.wellFormed, bufInRange, shiftInRange]

theorem shr (d : BufId) (n : ShiftCount) : Statement (.shr d n) := by
  simp [Statement, Instr.wellFormed, Instr.toAsm, Asm.wellFormed, bufInRange, shiftInRange]

theorem reduce (d a : BufId) : Statement (.reduce d a) := by
  simp [Statement, Instr.wellFormed, Instr.toAsm, Asm.wellFormed, bufInRange]

theorem setmod (a : BufId) : Statement (.setmod a) := by
  simp [Statement, Instr.wellFormed, Instr.toAsm, Asm.wellFormed, bufInRange]

theorem modmul (d a : BufId) : Statement (.modmul d a) := by
  simp [Statement, Instr.wellFormed, Instr.toAsm, Asm.wellFormed, bufInRange]

theorem modexp (d a b : BufId) : Statement (.modexp d a b) := by
  simp [Statement, Instr.wellFormed, Instr.toAsm, Asm.wellFormed, bufInRange]

end Sys2Proof.Laws.OperandsInRange
end

