-- ==== Sys2Proof/Machine/Assembly.lean ====
section
/-! DEFINITION. The written form of commands (R126, R127): one line of text to one command word. It is notation, no
engine state; what R126 leaves open about spelling is in log 17. -/

namespace Sys2Proof.Assembly

/-- An operand as written: a register name or a number (R126). -/
inductive Operand where
  | reg (k : Nat)
  | num (v : Nat)
deriving DecidableEq, Repr

/-- What a line assembles to: a line may hold no command; an error gives no word (R126). -/
inductive Line where
  | empty
  | command (w : Word)
  | error
deriving DecidableEq, Repr

/-- A blank between words. -/
def isBlank (c : Char) : Bool := c == ' ' || c == '\t'

/-- Text without the blanks around it. -/
def trim (cs : List Char) : List Char := ((cs.dropWhile isBlank).reverse.dropWhile isBlank).reverse

/-- The text before a comment (R126). -/
def stripComment (cs : List Char) : List Char := cs.takeWhile (· != ';')

/-- The parts between commas. -/
def splitCommas : List Char → List (List Char)
  | [] => [[]]
  | c :: cs =>
    match splitCommas cs with
    | [] => [[c]]
    | p :: ps => if c == ',' then [] :: p :: ps else (c :: p) :: ps

/-- The value of a digit character in a base up to 16. -/
def charDigit (base : Nat) (c : Char) : Option Nat :=
  let v :=
    if '0' ≤ c ∧ c ≤ '9' then some (c.toNat - '0'.toNat)
    else if 'a' ≤ c ∧ c ≤ 'f' then some (c.toNat - 'a'.toNat + 10)
    else if 'A' ≤ c ∧ c ≤ 'F' then some (c.toNat - 'A'.toNat + 10)
    else none
  v.bind fun n => if n < base then some n else none

/-- A numeral, its digits the most significant first. -/
def numeral (base : Nat) : List Char → Nat → Option Nat
  | [], acc => some acc
  | c :: cs, acc =>
    match charDigit base c with
    | some d => numeral base cs (acc * base + d)
    | none => none

/-- A decimal number or 0x hex (R126). -/
def parseNumber : List Char → Option Nat
  | '0' :: 'x' :: c :: cs => numeral 16 (c :: cs) 0
  | c :: cs => numeral 10 (c :: cs) 0
  | [] => none

/-- A register name, in either case, or a number (R126). -/
def parseOperand : List Char → Option Operand
  | 'B' :: c :: cs => (numeral 10 (c :: cs) 0).map .reg
  | 'b' :: c :: cs => (numeral 10 (c :: cs) 0).map .reg
  | cs => (parseNumber cs).map .num

/-- The operands of a line, separated by commas (R126); no text is no operand. -/
def parseOperands (cs : List Char) : Option (List Operand) :=
  if trim cs = [] then some [] else (splitCommas cs).mapM fun p => parseOperand (trim p)

/-- The syntax table of R126 and the pseudo-instructions of R127, the mnemonic in capitals. -/
def command (mnemonic : List Char) (operands : List Operand) : Option Asm :=
  match mnemonic, operands with
  | ['N', 'O', 'P'], [] => some .nop
  | ['M', 'A', 'C'], [.num a, .num b, .num c] => some (.mac a b c)
  | ['S', 'D', 'I', 'V'], [.num lo, .num dv] => some (.sdiv lo dv)
  | ['M', 'U', 'L'], [.reg d, .reg a, .reg b] => some (.mul d a b)
  | ['S', 'H', 'L'], [.reg d, .num n] => some (.shl d n)
  | ['S', 'H', 'R'], [.reg d, .num n] => some (.shr d n)
  | ['R', 'E', 'D', 'U', 'C', 'E'], [.reg d, .reg a] => some (.reduce d a)
  | ['S', 'E', 'T', 'M', 'O', 'D'], [.reg a] => some (.setmod a)
  | ['M', 'O', 'D', 'M', 'U', 'L'], [.reg d, .reg a] => some (.modmul d a)
  | ['M', 'O', 'D', 'E', 'X', 'P'], [.reg d, .reg a, .reg b] => some (.modexp d a b)
  | ['S', 'Q', 'R'], [.reg d, .reg a] => some (.sqr d a)
  | ['M', 'O', 'D', 'S', 'Q', 'R'], [.reg d] => some (.modsqr d)
  | ['C', 'F', 'L', 'U', 'S', 'H'], [] => some .cflush
  | _, _ => none

/-- One line of assembly (R126). -/
def assembleLine (line : List Char) : Line :=
  let text := trim (stripComment line)
  if text = [] then .empty
  else
    let word := do
      let operands ← parseOperands (text.dropWhile (fun c => !isBlank c))
      let asm ← command ((text.takeWhile (fun c => !isBlank c)).map Char.toUpper) operands
      asm.encode
    match word with
    | some w => .command w
    | none => .error

end Sys2Proof.Assembly
end

