-- ==== Sys2Proof/Tests/Slice0.lean ====
section
/-! SUPPORT. The model's own tests. Expected values come from spec/95_test_vectors.md (its row's name stands at each), from the rule
named there, or are written out from the encoding tables. The witnesses at the end meet the hypotheses of each obligation. -/

namespace Sys2Proof.Tests

set_option Elab.async false

open Sys2Proof Sys2Proof.Machine

/-! ## Small states -/

/-- 64 digits, the given ones first. -/
def pad (ds : List Byte) : List Byte := ds ++ List.replicate (64 - ds.length) 0#8

def buffer (ds : List Byte) : Buffer := { digits := pad ds, len := ds.length }

/-- An idle machine of CAP 64 with the given buffers, no modulus, all else 0. -/
def machine (bs : List (List Byte)) : State where
  cap := 64
  bufs := #v[buffer (bs.getD 0 []), buffer (bs.getD 1 []), buffer (bs.getD 2 []), buffer (bs.getD 3 []),
    buffer (bs.getD 4 []), buffer (bs.getD 5 []), buffer (bs.getD 6 []), buffer (bs.getD 7 [])]
  modulus := { digits := pad [], len := 0, valid := false }
  res := 0#8
  carry := 0#8
  rem := 0#8
  done := false
  err := false
  herr := false
  errcode := .none
  pend := none
  draws := 0
  schedule := []
  reads := []

/-- The machine with a modulus installed. -/
def withMod (n : List Byte) (s : State) : State := { s with modulus := { digits := pad n, len := n.length, valid := true } }

/-- The machine with a command pending and the engine's turn next. -/
def engineNext (w : Word) (s : State) : State := { s with pend := some w, schedule := [.engine] }

/-- The machine with one event to come. -/
def next (e : Event) (s : State) : State := { s with schedule := [e] }

def busyWith (w : Word) (s : State) : State := { s with pend := some w }

/-- The next state of an outcome. -/
def after : Result → Option State
  | .next t => some t
  | .fault _ => none
  | .refused _ => none

/-- What a command leaves in buffer `k`, and STATUS. -/
def bufferAfter (i : Instr) (s : State) (k : BufId) : Option (List Byte × Word) :=
  (after (exec i s)).map fun t => ((t.buf k).significant, t.statusWord)

/-- RES, CARRY, REM and STATUS after a command. -/
def scalarsAfter (i : Instr) (s : State) : Option (Byte × Byte × Byte × Word) :=
  (after (exec i s)).map fun t => (t.res, t.carry, t.rem, t.statusWord)

/-- STATUS after the engine executes a word. -/
def statusAfter (w : Word) (s : State) : Option Word := (after (step (engineNext w s))).map (·.statusWord)

/-! ## Well-formed assembly (R126): an ill-formed command for each check -/

theorem test_wf_mac_a : (Asm.mac 256 0 0).wellFormed = false := by decide
theorem test_wf_mac_b : (Asm.mac 0 256 0).wellFormed = false := by decide
theorem test_wf_mac_c : (Asm.mac 0 0 256).wellFormed = false := by decide
theorem test_wf_sdiv : (Asm.sdiv 256 1).wellFormed = false ∧ (Asm.sdiv 1 256).wellFormed = false := by decide
theorem test_wf_mul :
    (Asm.mul 8 0 1).wellFormed = false ∧ (Asm.mul 2 8 1).wellFormed = false ∧ (Asm.mul 2 0 8).wellFormed = false := by
  decide
theorem test_wf_shl : (Asm.shl 8 1).wellFormed = false ∧ (Asm.shl 1 8).wellFormed = false := by decide
theorem test_wf_shr : (Asm.shr 8 1).wellFormed = false ∧ (Asm.shr 1 8).wellFormed = false := by decide
theorem test_wf_reduce : (Asm.reduce 8 1).wellFormed = false ∧ (Asm.reduce 1 8).wellFormed = false := by decide
theorem test_wf_setmod : (Asm.setmod 8).wellFormed = false := by decide
theorem test_wf_modmul : (Asm.modmul 8 1).wellFormed = false ∧ (Asm.modmul 1 8).wellFormed = false := by decide
theorem test_wf_modexp :
    (Asm.modexp 8 0 1).wellFormed = false ∧ (Asm.modexp 2 8 1).wellFormed = false ∧
      (Asm.modexp 2 0 8).wellFormed = false := by
  decide
theorem test_wf_pseudo :
    (Asm.sqr 8 0).wellFormed = false ∧ (Asm.sqr 0 8).wellFormed = false ∧ (Asm.modsqr 8).wellFormed = false := by
  decide
theorem test_wf_accepts : (Asm.mac 255 255 255).wellFormed = true ∧ (Asm.shl 7 7).wellFormed = true := by decide

/-! ## Decoding: words written out from the field layout of R129 -/

/-- OPC 0x00, all else 0. -/
theorem test_decode_nop : decode 0b00000000_00000000_00000000_00000000#32 = .ok .nop := by decide
/-- OPC 0x01, A 0x12, B 0x34, C 0x56. -/
theorem test_decode_mac : decode 0b00000001_00010010_00110100_01010110#32 = .ok (.mac 0x12 0x34 0x56) := by decide
/-- OPC 0x02, reserved 0, DV 0x07, LO 0x34. -/
theorem test_decode_sdiv : decode 0b00000010_00000000_00000111_00110100#32 = .ok (.sdiv 0x34 0x07) := by decide
/-- OPC 0x10, 0 RD 010, 0 RA 110, 0 RB 101, twelve 0. -/
theorem test_decode_mul : decode 0b00010000_0_010_0_110_0_101_000000000000#32 = .ok (.mul 2 6 5) := by decide
/-- OPC 0x11, 0 RD 101, seventeen 0, SH 011. -/
theorem test_decode_shl : decode 0b00010001_0_101_00000000000000000_011#32 = .ok (.shl 5 3) := by decide
/-- OPC 0x12, 0 RD 111, seventeen 0, SH 110. -/
theorem test_decode_shr : decode 0b00010010_0_111_00000000000000000_110#32 = .ok (.shr 7 6) := by decide
/-- OPC 0x13, 0 RD 010, 0 RA 011, sixteen 0. -/
theorem test_decode_reduce : decode 0b00010011_0_010_0_011_0000000000000000#32 = .ok (.reduce 2 3) := by decide
/-- OPC 0x20, five 0, RA 100, sixteen 0. -/
theorem test_decode_setmod : decode 0b00100000_00000_100_0000000000000000#32 = .ok (.setmod 4) := by decide
/-- OPC 0x21, 0 RD 001, 0 RA 010, sixteen 0. -/
theorem test_decode_modmul : decode 0b00100001_0_001_0_010_0000000000000000#32 = .ok (.modmul 1 2) := by decide
/-- OPC 0x22, 0 RD 011, 0 RA 001, 0 RB 010, twelve 0. -/
theorem test_decode_modexp : decode 0b00100010_0_011_0_001_0_010_000000000000#32 = .ok (.modexp 3 1 2) := by decide
/-- DEC-2: the first unassigned opcode. -/
theorem test_decode_unassigned : decode 0x03000000#32 = .error .illegalOpcode := by decide
/-- SET-8 and SET-9: bits 23 and 19 are reserved in format R1. -/
theorem test_decode_reserved :
    decode 0x20800000#32 = .error .reservedField ∧ decode 0x20080000#32 = .error .reservedField := by
  decide
theorem test_table_word : decodeTableWord 32 0x10201000 = some (.mul 2 0 1) ∧ decodeTableWord 32 0xFF000000 = none := by
  decide

/-! ## Assembly text (R126, R127) -/

theorem test_asm_modexp : Assembly.assembleLine "  modexp b3, B1 , b2 ; c".toList = .command 0x22312000#32 := by
  decide +kernel
theorem test_asm_sdiv : Assembly.assembleLine "SDIV 0x34, 7".toList = .command 0x02000734#32 := by decide +kernel
theorem test_asm_sqr : Assembly.assembleLine "SQR B2, B0".toList = .command 0x10200000#32 := by decide +kernel
theorem test_asm_out_of_range :
    Assembly.assembleLine "SDIV 256, 7".toList = .error ∧ Assembly.assembleLine "SHL B8, 1".toList = .error := by
  decide +kernel

/-! ## Commands: at most two tests each -/

/-- NOP-1. -/
theorem test_nop : statusAfter 0x00000000#32 (machine []) = some 0x00000002#32 := by decide +kernel
/-- NOP-2. -/
theorem test_nop_reserved : statusAfter 0x00000001#32 (machine []) = some 0x00000206#32 := by decide +kernel
/-- MAC-1. -/
theorem test_mac :
    scalarsAfter (.mac 0x12 0x34 0x56) { machine [] with carry := 0x01#8 } =
      some (0xFF#8, 0x03#8, 0x00#8, 0x00000002#32) := by
  decide +kernel
/-- MAC-2. -/
theorem test_mac_max :
    scalarsAfter (.mac 0xFF 0xFF 0xFF) { machine [] with carry := 0xFF#8 } =
      some (0xFF#8, 0xFF#8, 0x00#8, 0x00000002#32) := by
  decide +kernel
/-- SDIV-3. -/
theorem test_sdiv :
    scalarsAfter (.sdiv 0xFF 0xFF) { machine [] with rem := 0xFE#8, res := 0x55#8 } =
      some (0xFF#8, 0x00#8, 0xFE#8, 0x00000002#32) := by
  decide +kernel
/-- SDIV-7. -/
theorem test_sdiv_range :
    scalarsAfter (.sdiv 0x12 0x07) { machine [] with rem := 0x07#8, res := 0x55#8 } =
      some (0x55#8, 0x00#8, 0x07#8, 0x00000606#32) := by
  decide +kernel
/-- MUL-7. -/
theorem test_mul :
    bufferAfter (.mul 2 0 1) (machine [[0xFF], [0xFF, 0xFF, 0xFF], [0xAD, 0xDE]]) 2 =
      some ([0x01, 0xFF, 0xFF, 0xFE], 0x00000002#32) := by
  decide +kernel
/-- MUL-9. -/
theorem test_mul_alias :
    bufferAfter (.mul 0 0 1) (machine [[0x12], [0x34]]) 0 = some ([0x12], 0x00000706#32) := by
  decide +kernel
/-- SH-1. -/
theorem test_shl :
    bufferAfter (.shl 5 3) (machine [[], [], [], [], [], [0x81, 0x40]]) 5 = some ([0x08, 0x04, 0x02], 0x00000002#32) := by
  decide +kernel
/-- SH-8: 0x20 at digit 63. -/
theorem test_shl_capacity :
    bufferAfter (.shl 0 3) (machine [List.replicate 63 0x00#8 ++ [0x20]]) 0 =
      some (List.replicate 63 0x00#8 ++ [0x20], 0x00000506#32) := by
  decide +kernel
/-- SH-15. -/
theorem test_shr :
    bufferAfter (.shr 5 4) (machine [[], [], [], [], [], [0x34, 0x12]]) 5 = some ([0x23, 0x01], 0x00000002#32) := by
  decide +kernel
/-- SH-12. -/
theorem test_shr_to_zero :
    bufferAfter (.shr 5 7) (machine [[], [], [], [], [], [0x7F]]) 5 = some ([], 0x00000002#32) := by
  decide +kernel
/-- RED-3. -/
theorem test_reduce :
    bufferAfter (.reduce 0 1) (machine [[0x5B, 0x47, 0x78, 0xC7], [0x82, 0x5A, 0x21]]) 0 =
      some ([0x67, 0x5A, 0x21], 0x00000002#32) := by
  decide +kernel
/-- RED-4 (C3). -/
theorem test_reduce_canonical :
    bufferAfter (.reduce 0 1) (machine [[0xFF, 0x01], [0x00, 0x01]]) 0 = some ([0xFF], 0x00000002#32) := by
  decide +kernel
/-- SET-1. -/
theorem test_setmod :
    ((after (exec (.setmod 0) (machine [[0x01, 0x01]]))).map fun t =>
      (t.modulus.digits.take 2, t.modulus.len, t.statusWord)) = some ([0x01, 0x01], 2, 0x00000012#32) := by
  decide +kernel
/-- SET-6. -/
theorem test_setmod_short :
    ((after (exec (.setmod 0) (withMod [0x01, 0x01] (machine [[0x12]])))).map fun t =>
      (t.modulus.digits.take 2, t.modulus.len, t.statusWord)) = some ([0x01, 0x01], 2, 0x00000416#32) := by
  decide +kernel
/-- MM-2. -/
theorem test_modmul :
    bufferAfter (.modmul 1 2) (withMod [0x01, 0x01] (machine [[], [0x34, 0x12], [0x78, 0x56]])) 1 =
      some ([0x80], 0x00000012#32) := by
  decide +kernel
/-- MM-1: squaring in place. -/
theorem test_modsqr :
    bufferAfter (.modmul 1 1) (withMod [0x01, 0x01] (machine [[], [0x00, 0x01]])) 1 = some ([0x01], 0x00000012#32) := by
  decide +kernel
/-- EXP-18: the RSA-128 fixture. -/
theorem test_modexp :
    bufferAfter (.modexp 3 1 2)
        (withMod [0x0F, 0x4A, 0x5D, 0x3D, 0xCA, 0xF9, 0x0C, 0x00, 0x65, 0xE4, 0x55, 0x70, 0x85, 0x2C, 0xA7, 0x70]
          (machine [[],
            [0x21, 0x31, 0x5F, 0x38, 0x32, 0x31, 0x20, 0x41, 0x53, 0x52, 0x20, 0x6F, 0x6C, 0x6C, 0x65, 0x48],
            [0x01, 0x00, 0x01]])) 3 =
      some ([0xE7, 0x1C, 0xF0, 0xD4, 0x5F, 0xC2, 0x9E, 0x84, 0x40, 0xDB, 0xA8, 0x72, 0x49, 0x9E, 0xFF, 0x37],
        0x00000012#32) := by
  decide +kernel
/-- EXP-4: an exponent that is not canonical and is zero. -/
theorem test_modexp_zero_exponent :
    bufferAfter (.modexp 3 1 2) (withMod [0x01, 0x01] (machine [[], [0x03], [0x00, 0x00, 0x00]])) 3 =
      some ([0x01], 0x00000012#32) := by
  decide +kernel

/-! ## Priority (R246) -/

/-- DEC-5: reserved and alias. -/
theorem test_priority_reserved : statusAfter 0x10221001#32 (machine []) = some 0x00000206#32 := by decide +kernel
/-- DEC-6: alias and divisor short. -/
theorem test_priority_alias : statusAfter 0x13110000#32 (machine [[], [0x05]]) = some 0x00000706#32 := by decide +kernel
/-- DEC-7: unset and alias. -/
theorem test_priority_unset : statusAfter 0x22001000#32 (machine []) = some 0x00000806#32 := by decide +kernel
/-- MUL-13: the worst case counts, though the product would fit. -/
theorem test_capacity_worst_case :
    statusAfter 0x10201000#32 (machine [[0x01], List.replicate 63 0x00#8 ++ [0x01]]) = some 0x00000506#32 := by
  decide +kernel

/-! ## The reference procedures -/

/-- RED-3's trace: 0xc778475b mod 0x215a82, the add-back case. -/
theorem test_algorithm_d : AlgorithmD.remainder 0xc778475b 0x215a82 4 3 = 0x215a67 := by decide +kernel
/-- MUL-1. -/
theorem test_schoolbook : schoolbook [0xFF, 0xFF] [0xFF, 0xFF] = [0x01, 0x00, 0xFE, 0xFF] := by decide +kernel
/-- SDIV-1. -/
theorem test_restoring : restoringDivide 0x05 0x34 0x07 = (0xBE, 0x02) := by decide +kernel

/-! ## The host port (section 4 of the vectors) -/

/-- What one host access returns first, and STATUS after it. -/
def portAfter (e : Event) (s : State) : Option (List Word × Word) :=
  (after (step (next e s))).map fun t => (t.reads, t.statusWord)

/-- HOST-1. -/
theorem test_host_config : portAfter (.read 0x0000#16 4) (machine []) = some ([0x01080040#32], 0#32) := by decide +kernel
/-- HOST-2. -/
theorem test_host_reserved : portAfter (.read 0x0014#16 4) (machine []) = some ([0#32], 8#32) := by decide +kernel
/-- HOST-3 and HOST-4: LEN0 at CAP + 1 and at CAP. -/
theorem test_host_len :
    ((after (step (next (.write 0x0040#16 4 65#32) (machine [])))).map fun t => (t.len 0, t.statusWord)) = some (0, 8#32) ∧
      ((after (step (next (.write 0x0040#16 4 64#32) (machine [])))).map fun t => (t.len 0, t.statusWord)) =
        some (64, 0#32) := by
  decide +kernel
/-- HOST-6. -/
theorem test_host_misaligned : portAfter (.read 0x0042#16 4) (machine []) = some ([0#32], 8#32) := by decide +kernel
/-- HOST-7. -/
theorem test_host_beyond_cap : portAfter (.read 0x1040#16 1) (machine []) = some ([0#32], 8#32) := by decide +kernel
/-- HOST-8. -/
theorem test_host_mod_window : portAfter (.write 0x9000#16 1 1#32) (machine []) = some ([], 8#32) := by decide +kernel
/-- HOST-11. -/
theorem test_host_scalar :
    ((after (step (next (.write 0x000C#16 4 0xFF030201#32) (machine [])))).map (·.scalarWord)) = some 0x00030201#32 := by
  decide +kernel
/-- HOST-13. -/
theorem test_host_clear_err :
    portAfter (.write 0x0004#16 4 4#32) { machine [] with done := true, err := true, errcode := .sdivRange } =
      some ([], 2#32) := by
  decide +kernel
/-- HOST-15: digit 3 of B1. -/
theorem test_host_digit :
    ((after (step (next (.write 0x2003#16 1 0xAB#32) (machine [])))).map fun t => (t.buf 1).digits.getD 3 0) =
      some 0xAB#8 := by
  decide +kernel
/-- HOST-16 and HOST-17: STATUS and SCALAR while busy. -/
theorem test_host_busy :
    portAfter (.read 0x0004#16 4) (busyWith 0#32 (machine [])) = some ([1#32], 1#32) ∧
      portAfter (.read 0x000C#16 4) (busyWith 0#32 (machine [])) = some ([0#32], 9#32) := by
  decide +kernel
/-- R84: a CMD write is accepted. -/
theorem test_host_cmd :
    ((after (step (next (.write 0x0008#16 4 0x22312000#32) { machine [] with done := true }))).map fun t =>
      (t.pend, t.statusWord)) = some (some 0x22312000#32, 1#32) := by
  decide +kernel
/-- The command placed by `withFetchWord` is the next one run (NOP-1's STATUS). -/
theorem test_fetch_word : ((after (step (State.reset.withFetchWord 32 0))).map (·.statusWord)) = some 2#32 := by
  decide +kernel

end Sys2Proof.Tests
end

