-- ==== Sys2Proof/Tests/Witnesses.lean ====
section
/-! SUPPORT. For each obligation with hypotheses, concrete states and operands that meet them, clause by clause, at
boundary values where a clause has a range. -/

namespace Sys2Proof.Tests

set_option Elab.async false

open Sys2Proof Sys2Proof.Machine

/-! ## States -/

/-- Idle, no modulus: B0 = 257, B1 = 1 digit, B2 empty, B3 not canonical, B4 = 2 digits 0xFF. -/
def plain : State := machine [[0x01, 0x01], [0x05], [], [0x12, 0x00], [0xFF, 0xFF]]

/-- The same with the modulus 257. -/
def modular : State := withMod [0x01, 0x01] plain

/-- B0 and B1 fill CAP with top digits 0x1F and 0x20. -/
def full : State := machine [List.replicate 63 0x00#8 ++ [0x1F], List.replicate 63 0x00#8 ++ [0x20], [0x01]]

theorem plain_inv : Inv plain := inv_of_check (by decide +kernel)
theorem modular_inv : Inv modular := inv_of_check (by decide +kernel)
theorem full_inv : Inv full := inv_of_check (by decide +kernel)

/-- A command pending, DONE and ERR 0, the engine's turn next. -/
theorem turn_inv (w : Word) : Inv (engineNext w plain) := by
  obtain ⟨h1, h2, h3, h4, h5, h6, h7, h8, -⟩ := plain_inv
  exact ⟨h1, h2, h3, h4, h5, h6, h7, h8, fun _ => ⟨rfl, rfl⟩⟩

theorem full_turn_inv (w : Word) : Inv (engineNext w full) := by
  obtain ⟨h1, h2, h3, h4, h5, h6, h7, h8, -⟩ := full_inv
  exact ⟨h1, h2, h3, h4, h5, h6, h7, h8, fun _ => ⟨rfl, rfl⟩⟩

/-- One event to come does not touch the invariant. -/
theorem next_inv {s : State} (h : Inv s) (e : Event) : Inv (next e s) :=
  ⟨h.cap_range, h.buf_digits, h.buf_len, h.mod_digits, h.mod_len, h.mod_valid, h.mod_unset, h.err_code, h.busy_clear⟩

theorem engineTurn_of (w : Word) (s : State) : EngineTurn (engineNext w s) w [] := ⟨rfl, rfl⟩

/-! ## Reset and the invariant -/

theorem witness_ResetEventAbandonsThePendingCommand :
    (next .reset (busyWith 0x22312000#32 plain)).schedule = [.reset] ∧
      (next .reset (busyWith 0x22312000#32 plain)).busy = true := by
  decide +kernel

theorem witness_ResetMeetsInv : ((2 : Nat) ≤ 2 ∧ (2 : Nat) ≤ 4096) ∧ ((2 : Nat) ≤ 4096 ∧ (4096 : Nat) ≤ 4096) := by decide

theorem witness_StepKeepsInv : ∃ s t, Inv s ∧ step s = .next t ∧ t.busy = true :=
  ⟨next (.write 0x0008#16 4 0#32) plain, _, next_inv plain_inv _, rfl, by decide +kernel⟩

theorem witness_ReachableLengthsWithinCap :
    ∃ s, (2 : Nat) ≤ 4 ∧ (4 : Nat) ≤ 4096 ∧ Reachable 4 s ∧ s.len 0 = 4 :=
  ⟨_, by decide, by decide, .step (.reset 0 [.write 0x0040#16 4 4#32] []) rfl, by decide +kernel⟩

theorem witness_ValidModulusIsAtLeast256 : Inv modular ∧ modular.modulus.valid = true := ⟨modular_inv, rfl⟩

/-! ## Encoding and the step -/

theorem witness_EncodeOfDecode : decode 0x22312000#32 = .ok (.modexp 3 1 2) := by decide

theorem witness_AssemblyTableEncodings :
    (Asm.shl 1 8).wellFormed = false ∧ ((255 : Nat) < 256 ∧ (0 : Nat) < 256) ∧ (7 : Nat) < 8 ∧ (0 : Nat) < 8 := by
  decide

/-- Both ends of each unassigned range. -/
theorem witness_UnassignedOpcodeIsIllegal :
    EngineTurn (engineNext 0x03000000#32 plain) 0x03000000#32 [] ∧
      (opcodeOf 0x03000000#32).toNat = 0x03 ∧ (opcodeOf 0x0F123456#32).toNat = 0x0F ∧
      (opcodeOf 0x14000000#32).toNat = 0x14 ∧ (opcodeOf 0x1F000001#32).toNat = 0x1F ∧
      (opcodeOf 0x23000000#32).toNat = 0x23 ∧ (opcodeOf 0xFFFFFFFF#32).toNat = 0xFF :=
  ⟨engineTurn_of _ _, by decide⟩

theorem witness_ReservedBitIsRefused :
    EngineTurn (engineNext 0x10201001#32 plain) 0x10201001#32 [] ∧ (0x10#8, 0x00888FFF#32) ∈ reservedBits ∧
      opcodeOf 0x10201001#32 = 0x10#8 ∧ 0x10201001#32 &&& 0x00888FFF#32 ≠ 0#32 :=
  ⟨engineTurn_of _ _, by decide⟩

theorem witness_StepRunsTheDecodedCommand :
    (engineNext 0x10201000#32 plain).pend = some 0x10201000#32 ∧ decode 0x10201000#32 = .ok (.mul 2 0 1) ∧
      (engineNext 0x10201000#32 plain).schedule = [.engine] ∧ (busyWith 0x10201000#32 plain).schedule = [] := by
  decide +kernel

theorem witness_IdleEngineChangesNothing :
    plain.busy = false ∧ plain.schedule = [] ∧ (next .engine plain).busy = false ∧
      (next .engine plain).schedule = [.engine] := by
  decide +kernel

theorem witness_PendingCommandCompletes :
    (next (.read 0x0004#16 4) (busyWith 0#32 plain)).busy = true ∧
      ∀ e ∈ (next (.read 0x0004#16 4) (busyWith 0#32 plain)).schedule, e ≠ .reset := by
  decide +kernel

/-- `ErrorApplies` as a check. -/
def decApplies (c : ErrCode) (w : Word) (s : State) : Decidable (ErrorApplies c w s) := by
  cases c <;> dsimp only [ErrorApplies] <;>
    first | exact List.decidableBAll _ _ | exact List.decidableBEx _ _ | infer_instance

def applies (c : ErrCode) (w : Word) (s : State) : Bool := @decide _ (decApplies c w s)

/-- `ReportedError` as a check. -/
def reported (c : ErrCode) (w : Word) (s : State) : Bool :=
  applies c w s && (errorPriority.takeWhile (· ≠ c)).all fun b => !applies b w s

theorem applies_iff (c : ErrCode) (w : Word) (s : State) : applies c w s = true ↔ ErrorApplies c w s :=
  @decide_eq_true_iff _ (decApplies c w s)

theorem reported_sound {c : ErrCode} {w : Word} {s : State} (hc : c ≠ .none) (h : reported c w s = true) :
    ReportedError c w s := by
  simp only [reported, Bool.and_eq_true, List.all_eq_true, Bool.not_eq_true', applies_iff] at h
  refine ⟨errorPriority.takeWhile (· ≠ c), (errorPriority.dropWhile (· ≠ c)).tail, ?_, h.1, fun b hb hab => ?_⟩
  · revert hc; cases c <;> decide
  · simpa [(applies_iff b w s).2 hab] using h.2 b hb

/-- Each of the eight codes is the reported one for some word and state. -/
theorem witness_FirstApplicableErrorIsReported_illegal :
    Inv (engineNext 0xFF000000#32 plain) ∧ EngineTurn (engineNext 0xFF000000#32 plain) 0xFF000000#32 [] ∧
      ReportedError .illegalOpcode 0xFF000000#32 (engineNext 0xFF000000#32 plain) :=
  ⟨turn_inv _, engineTurn_of _ _, reported_sound (by decide) (by decide +kernel)⟩

theorem witness_FirstApplicableErrorIsReported_reserved :
    ReportedError .reservedField 0x10221001#32 (engineNext 0x10221001#32 plain) :=
  reported_sound (by decide) (by decide +kernel)

theorem witness_FirstApplicableErrorIsReported_unset :
    ReportedError .modulusUnset 0x22001000#32 (engineNext 0x22001000#32 plain) :=
  reported_sound (by decide) (by decide +kernel)

theorem witness_FirstApplicableErrorIsReported_alias :
    ReportedError .aliased 0x13110000#32 (engineNext 0x13110000#32 plain) :=
  reported_sound (by decide) (by decide +kernel)

theorem witness_FirstApplicableErrorIsReported_noncanonical :
    ReportedError .noncanonical 0x20030000#32 (engineNext 0x20030000#32 plain) :=
  reported_sound (by decide) (by decide +kernel)

theorem witness_FirstApplicableErrorIsReported_divisorShort :
    ReportedError .divisorShort 0x13010000#32 (engineNext 0x13010000#32 plain) :=
  reported_sound (by decide) (by decide +kernel)

theorem witness_FirstApplicableErrorIsReported_sdivRange :
    ReportedError .sdivRange 0x02000012#32 (engineNext 0x02000012#32 plain) :=
  reported_sound (by decide) (by decide +kernel)

/-- MUL of 64 and 1 digits. -/
theorem witness_FirstApplicableErrorIsReported_capacity :
    Inv (engineNext 0x10302000#32 full) ∧ ReportedError .capacity 0x10302000#32 (engineNext 0x10302000#32 full) :=
  ⟨full_turn_inv _, reported_sound (by decide) (by decide +kernel)⟩

/-- No error applies to MUL B2, B0, B1. -/
theorem witness_FirstApplicableErrorIsReported_none :
    Inv (engineNext 0x10201000#32 plain) ∧ EngineTurn (engineNext 0x10201000#32 plain) 0x10201000#32 [] ∧
      ∀ c, ¬ErrorApplies c 0x10201000#32 (engineNext 0x10201000#32 plain) := by
  refine ⟨turn_inv _, engineTurn_of _ _, fun c hc => ?_⟩
  have h := (applies_iff _ _ _).2 hc
  cases c <;> exact absurd h (by decide +kernel)

/-! ## Commands -/

theorem witness_SdivDividesTwoDigitsByOne :
    ¬(0x00#8).toNat > plain.rem.toNat ∧ (0x01#8).toNat > plain.rem.toNat := by decide +kernel

theorem witness_RestoringLoopIsDivision : (0xFE#8).toNat < (0xFF#8).toNat ∧ (0x00#8).toNat < (0x01#8).toNat := by decide

theorem witness_MulWritesTheProduct :
    ((0 : BufId) = 0 ∨ (0 : BufId) = 1) ∧
      ((2 : BufId) ≠ 3 ∧ (2 : BufId) ≠ 0 ∧ (plain.canonical 3 = false ∨ plain.canonical 0 = false)) ∧
      ((3 : BufId) ≠ 0 ∧ (3 : BufId) ≠ 2 ∧ full.canonical 0 = true ∧ full.canonical 2 = true ∧
        full.len 0 + full.len 2 > full.cap) ∧
      ((3 : BufId) ≠ 0 ∧ (3 : BufId) ≠ 4 ∧ full.canonical 0 = true ∧ full.canonical 4 = true ∧
        full.len 0 + full.len 4 ≤ full.cap) := by
  decide +kernel

theorem witness_MulLengthLaw :
    (∃ t, (5 : BufId) ≠ 2 ∧ (5 : BufId) ≠ 0 ∧ plain.canonical 2 = true ∧ plain.canonical 0 = true ∧
      plain.len 2 + plain.len 0 ≤ plain.cap ∧ exec (.mul 5 2 0) plain = .next t ∧
      (plain.len 2 = 0 ∨ plain.len 0 = 0)) ∧
    ∃ t, (5 : BufId) ≠ 1 ∧ (5 : BufId) ≠ 0 ∧ plain.canonical 1 = true ∧ plain.canonical 0 = true ∧
      plain.len 1 + plain.len 0 ≤ plain.cap ∧ exec (.mul 5 1 0) plain = .next t ∧ plain.len 1 ≠ 0 ∧ plain.len 0 ≠ 0 :=
  ⟨⟨_, by decide, by decide, by decide +kernel, by decide +kernel, by decide +kernel, rfl, by decide +kernel⟩,
    ⟨_, by decide, by decide, by decide +kernel, by decide +kernel, by decide +kernel, rfl, by decide +kernel⟩⟩

theorem witness_SchoolbookIsTheProduct :
    ([0x00#8, 0x01#8]).getD (([0x00#8, 0x01#8] : List Byte).length - 1) 0#8 ≠ 0#8 ∧
      ([0xFF#8]).getD (([0xFF#8] : List Byte).length - 1) 0#8 ≠ 0#8 := by
  decide

/-- Top digits 0x1F and 0x20 at a count of 3 stand on the two sides of the capacity. -/
theorem witness_ShlMultipliesByAPowerOfTwo :
    plain.canonical 3 = false ∧
      (plain.canonical 0 = true ∧ ((0 : ShiftCount).val = 0 ∨ plain.len 0 = 0)) ∧
      (plain.canonical 2 = true ∧ ((3 : ShiftCount).val = 0 ∨ plain.len 2 = 0)) ∧
      (full.canonical 1 = true ∧ (3 : ShiftCount).val ≠ 0 ∧ full.len 1 ≠ 0 ∧ full.len 1 = full.cap ∧
        (full.buf 1).topDigit.toNat / 2 ^ (8 - (3 : ShiftCount).val) ≠ 0) ∧
      (full.canonical 0 = true ∧ (3 : ShiftCount).val ≠ 0 ∧ full.len 0 ≠ 0 ∧
        ¬(full.len 0 = full.cap ∧ (full.buf 0).topDigit.toNat / 2 ^ (8 - (3 : ShiftCount).val) ≠ 0)) := by
  decide +kernel

theorem witness_ShrDividesByAPowerOfTwo :
    plain.canonical 3 = false ∧ (plain.canonical 2 = true ∧ ((7 : ShiftCount).val = 0 ∨ plain.len 2 = 0)) ∧
      (plain.canonical 1 = true ∧ (7 : ShiftCount).val ≠ 0 ∧ plain.len 1 ≠ 0) := by
  decide +kernel

theorem witness_ShrUndoesShl : ∃ t, plain.err = false ∧ exec (.shl 4 7) plain = .next t ∧ t.err = false :=
  ⟨_, by decide +kernel, rfl, by decide +kernel⟩

theorem witness_ReduceWritesTheRemainder :
    ((0 : BufId) = 0) ∧ ((0 : BufId) ≠ 3 ∧ (plain.canonical 0 = false ∨ plain.canonical 3 = false)) ∧
      ((0 : BufId) ≠ 1 ∧ plain.canonical 0 = true ∧ plain.canonical 1 = true ∧ plain.len 1 < 2) ∧
      ((1 : BufId) ≠ 0 ∧ plain.canonical 1 = true ∧ plain.canonical 0 = true ∧ 2 ≤ plain.len 0 ∧
        plain.len 1 < plain.len 0) ∧
      ((4 : BufId) ≠ 0 ∧ plain.canonical 4 = true ∧ plain.canonical 0 = true ∧ 2 ≤ plain.len 0 ∧
        plain.len 0 ≤ plain.len 4) := by
  decide +kernel

/-- RED-4's operands. -/
theorem witness_AlgorithmDIsTheRemainder :
    2 ≤ 2 ∧ 2 ≤ 2 ∧ 0x01FF < 256 ^ 2 ∧ 256 ^ (2 - 1) ≤ 0x0100 ∧ 0x0100 < 256 ^ 2 := by decide

/-- The least normalized divisor of two digits and the greatest window below 256 times it. -/
theorem witness_QuotientEstimateBounds :
    2 ≤ 2 ∧ 128 * 256 ^ (2 - 1) ≤ 0x8000 ∧ 0x8000 < 256 ^ 2 ∧ AlgorithmD.window 0x7FFFFF 2 0 < 256 * 0x8000 := by
  decide +kernel

theorem witness_SetmodInstallsTheModulus :
    Inv plain ∧ plain.canonical 3 = false ∧ (plain.canonical 1 = true ∧ plain.len 1 < 2) ∧
      (plain.canonical 0 = true ∧ 2 ≤ plain.len 0) :=
  ⟨plain_inv, by decide +kernel⟩

theorem witness_ModmulWritesTheProductModN :
    (Inv plain ∧ plain.modulus.valid = false) ∧ Inv modular ∧ modular.modulus.valid = true ∧
      (modular.canonical 3 = false ∨ modular.canonical 0 = false) ∧
      (modular.canonical 4 = true ∧ modular.canonical 1 = true) :=
  ⟨⟨plain_inv, rfl⟩, modular_inv, by decide +kernel⟩

theorem witness_ModmulIsMulThenReduce :
    Inv modular ∧ modular.modulus.valid = true ∧ modular.canonical 4 = true ∧ modular.canonical 1 = true ∧
      (5 : BufId) ≠ 4 ∧ (5 : BufId) ≠ 1 ∧ (5 : BufId) ≠ 0 ∧ modular.val 0 = modular.modVal ∧
      modular.canonical 0 = true ∧ modular.len 4 + modular.len 1 ≤ modular.cap :=
  ⟨modular_inv, by decide +kernel⟩

theorem witness_ModexpWritesThePowerModN :
    (Inv plain ∧ plain.modulus.valid = false) ∧ Inv modular ∧ modular.modulus.valid = true ∧
      ((1 : BufId) = 1 ∨ (1 : BufId) = 2) ∧
      ((5 : BufId) ≠ 3 ∧ (5 : BufId) ≠ 2 ∧ modular.canonical 3 = false) ∧
      ((5 : BufId) ≠ 1 ∧ (5 : BufId) ≠ 3 ∧ modular.canonical 1 = true) :=
  ⟨⟨plain_inv, rfl⟩, modular_inv, by decide +kernel⟩

/-- MODMUL answers a next state; the second operand of each clause about another command is met by it too. -/
theorem witness_CommandsWriteOnlyTheirItems :
    ∃ t, exec (.modmul 4 1) modular = .next t ∧ writtenBuffer (.modmul 4 1) ≠ some 0 ∧
      (∀ a, Instr.modmul 4 1 ≠ .setmod a) ∧ (∀ a b c, Instr.modmul 4 1 ≠ .mac a b c) ∧
      ∀ lo dv, Instr.modmul 4 1 ≠ .sdiv lo dv :=
  ⟨_, rfl, by decide, by simp, by simp, by simp⟩

/-- B1 holds one digit, and the digits above it differ. -/
def stale : State := modular.setBuf 1 { digits := 0x05#8 :: List.replicate 63 0xEE#8, len := 1 }

theorem stale_inv : Inv stale := inv_of_check (by decide +kernel)

theorem witness_StaleDigitsDoNotAffectCommands :
    ∃ t t', Inv modular ∧ Inv stale ∧ SameButStaleDigits modular stale ∧ modular ≠ stale ∧
      exec (.modmul 4 1) modular = .next t ∧ exec (.modmul 4 1) stale = .next t' := by
  refine ⟨_, _, modular_inv, stale_inv, ⟨by decide +kernel, rfl, rfl, rfl, ⟨rfl, rfl, rfl⟩, ⟨rfl, rfl, rfl⟩, rfl, rfl, rfl,
    rfl, rfl⟩, ?_, rfl, rfl⟩
  decide +kernel

theorem witness_ModulusChangesOnlyBySetmodOrReset :
    (∃ t, step (engineNext 0x20000000#32 plain) = .next t ∧ t.modulus ≠ plain.modulus) ∧
      ∃ t, step (next .reset modular) = .next t ∧ t.modulus ≠ modular.modulus := by
  refine ⟨⟨_, rfl, ?_⟩, ⟨_, rfl, ?_⟩⟩
  · exact fun h => absurd (congrArg Modulus.valid h) (by decide +kernel)
  · exact fun h => absurd (congrArg Modulus.valid h) (by decide +kernel)

theorem witness_CarryChangesOnlyByMacOrHost :
    (∃ t, step (engineNext 0x01FFFF00#32 plain) = .next t ∧ t.carry ≠ plain.carry) ∧
      (∃ t, step (next (.write 0x000C#16 4 0x100#32) plain) = .next t ∧ t.carry ≠ plain.carry) ∧
      ∃ t, step (next .reset { plain with carry := 1#8 }) = .next t ∧ t.carry ≠ 1#8 :=
  ⟨⟨_, rfl, by decide +kernel⟩, ⟨_, rfl, by decide +kernel⟩, ⟨_, rfl, by decide +kernel⟩⟩

theorem witness_RemChangesOnlyBySdivOrHost :
    (∃ t, step (engineNext 0x02000701#32 plain) = .next t ∧ t.rem ≠ plain.rem) ∧
      (∃ t, step (next (.write 0x000C#16 4 0x10000#32) plain) = .next t ∧ t.rem ≠ plain.rem) ∧
      ∃ t, step (next .reset { plain with rem := 1#8 }) = .next t ∧ t.rem ≠ 1#8 :=
  ⟨⟨_, rfl, by decide +kernel⟩, ⟨_, rfl, by decide +kernel⟩, ⟨_, rfl, by decide +kernel⟩⟩

/-! ## The host port -/

theorem witness_ConfigIsConstant :
    (∃ t, step (next .reset modular) = .next t) ∧ Inv (next (.read 0x0000#16 4) plain) ∧ (next (.read 0x0000#16 4) plain).schedule = [.read 0x0000#16 4] ∧
      Inv (next (.write 0x0000#16 4 0#32) plain) ∧
      (next (.write 0x0000#16 4 0#32) plain).schedule = [.write 0x0000#16 4 0#32] :=
  ⟨⟨_, rfl⟩, next_inv plain_inv _, rfl, next_inv plain_inv _, rfl⟩

theorem witness_StatusReadsItsFieldsAndClearsByOnes :
    (next (.read 0x0004#16 4) plain).schedule = [.read 0x0004#16 4] ∧
      (next (.write 0x0004#16 4 0xE#32) plain).busy = false ∧
      (next (.write 0x0004#16 4 0xE#32) plain).schedule = [.write 0x0004#16 4 0xE#32] := by
  decide +kernel

theorem witness_ScalarReadsAndWritesItsThreeDigits :
    (next (.read 0x000C#16 4) plain).busy = false ∧ (next (.read 0x000C#16 4) plain).schedule = [.read 0x000C#16 4] ∧
      (next (.write 0x000C#16 4 0xFF030201#32) plain).busy = false ∧
      (next (.write 0x000C#16 4 0xFF030201#32) plain).schedule = [.write 0x000C#16 4 0xFF030201#32] := by
  decide +kernel

/-- LEN7 written with CAP and with CAP + 1. -/
theorem witness_LengthRegisters :
    Inv (next (.read (lenAddr 7) 4) plain) ∧ (next (.read (lenAddr 7) 4) plain).busy = false ∧
      (next (.read (lenAddr 7) 4) plain).schedule = [.read (lenAddr 7) 4] ∧
      (next (.read 0x0010#16 4) plain).schedule = [.read 0x0010#16 4] ∧
      (64#32).toNat ≤ plain.cap ∧ (65#32).toNat > plain.cap ∧
      (next (.write (lenAddr 7) 4 65#32) plain).schedule = [.write (lenAddr 7) 4 65#32] :=
  ⟨next_inv plain_inv _, by decide +kernel⟩

theorem witness_CmdAcceptsACommand :
    (next (.write 0x0008#16 4 0#32) plain).busy = false ∧
      (next (.write 0x0008#16 4 0#32) plain).schedule = [.write 0x0008#16 4 0#32] ∧
      { next (.write 0x0008#16 4 0#32) plain with schedule := [.write 0x0008#16 4 0#32, .engine] }.schedule =
        .write 0x0008#16 4 0#32 :: .engine :: [] ∧
      decode 0#32 = .ok .nop ∧ (next (.read 0x0008#16 4) plain).schedule = [.read 0x0008#16 4] := by
  decide +kernel

/-- The first and the last digit of the first and the last buffer. -/
theorem witness_BufferDigitAccess :
    Inv (next (.write (digitAddr 7 63) 1 0xAB#32) plain) ∧
      (next (.write (digitAddr 7 63) 1 0xAB#32) plain).busy = false ∧ 63 < plain.cap ∧ 0 < plain.cap ∧
      digitAddr 7 63 = 0x803F#16 ∧ digitAddr 0 0 = 0x1000#16 ∧
      (next (.read (digitAddr 0 0) 1) plain).schedule = [.read (digitAddr 0 0) 1] :=
  ⟨next_inv plain_inv _, by decide +kernel⟩

theorem witness_ModulusDigitAccess :
    Inv (next (.read (modDigitAddr 63) 1) modular) ∧ 63 < modular.cap ∧
      (next (.read (modDigitAddr 63) 1) modular).busy = false ∧
      (next (.read (modDigitAddr 63) 1) modular).schedule = [.read (modDigitAddr 63) 1] ∧
      (next (.write (modDigitAddr 0) 1 1#32) modular).schedule = [.write (modDigitAddr 0) 1 1#32] :=
  ⟨next_inv modular_inv _, by decide +kernel⟩

/-- A read of STATUS one byte wide, and one of SCALAR, are among those refused. -/
theorem witness_BusyPortServesOnlyConfigAndStatus :
    (next (.read 0x0004#16 1) (busyWith 0#32 plain)).busy = true ∧
      (next (.read 0x0004#16 1) (busyWith 0#32 plain)).schedule = [.read 0x0004#16 1] ∧
      ¬((1 : Nat) = 4 ∧ (0x0004#16 = 0x0000#16 ∨ 0x0004#16 = 0x0004#16)) ∧
      ¬((4 : Nat) = 4 ∧ (0x000C#16 = 0x0000#16 ∨ 0x000C#16 = 0x0004#16)) ∧
      (next (.read 0x0000#16 4) (busyWith 0#32 plain)).schedule = [.read 0x0000#16 4] ∧
      (next (.write 0x0008#16 4 0#32) (busyWith 0#32 plain)).schedule = [.write 0x0008#16 4 0#32] := by
  decide +kernel

/-- Both ends of each reserved range. -/
theorem witness_ReservedAddressIsRefused :
    ReservedAddr 64 0x0014#16 ∧ ReservedAddr 64 0x003F#16 ∧ ReservedAddr 64 0x0060#16 ∧ ReservedAddr 64 0x0FFF#16 ∧
      ReservedAddr 64 0x1040#16 ∧ ReservedAddr 64 0x9FFF#16 ∧ ReservedAddr 64 0xA000#16 ∧ ReservedAddr 64 0xFFFF#16 ∧
      (next (.read 0x0014#16 4) plain).schedule = [.read 0x0014#16 4] := by
  refine ⟨?_, ?_, ?_, ?_, ?_, ?_, ?_, ?_, rfl⟩ <;> simp only [ReservedAddr] <;> decide

theorem witness_WrongWidthOrAlignmentIsRefused :
    WrongShape 0x0004#16 1 ∧ WrongShape 0x0042#16 4 ∧ WrongShape 0x0FFF#16 4 ∧ WrongShape 0x1000#16 4 ∧
      WrongShape 0x9FFF#16 0 ∧ (next (.read 0x0042#16 4) plain).schedule = [.read 0x0042#16 4] := by
  simp only [WrongShape]; decide +kernel

theorem witness_ReadOnlyItemsRefuseWrites :
    plain.cap ≤ 4096 ∧ 63 < plain.cap ∧
      (next (.write 0x0010#16 4 0#32) plain).schedule = [.write 0x0010#16 4 0#32] ∧
      (next (.write 0x0004#16 4 8#32) plain).schedule = [.write 0x0004#16 4 8#32] ∧
      (next (.write 0x0004#16 4 8#32) plain).busy = false ∧ (next (.write 0x0004#16 4 8#32) plain).herr = false := by
  decide +kernel

theorem witness_ReadsHaveNoOtherEffect : (next (.read 0x0004#16 4) plain).schedule = [.read 0x0004#16 4] := by
  decide +kernel

theorem witness_HerrIsSticky :
    (∃ t, step (next (.write 0x0004#16 4 8#32) { plain with herr := true }) = .next t ∧ t.herr = false) ∧
      ∃ t, step (next .reset { plain with herr := true }) = .next t ∧ t.herr = false :=
  ⟨⟨_, rfl, by decide +kernel⟩, ⟨_, rfl, by decide +kernel⟩⟩

theorem witness_OnlyRefusedAccessesSetHerr :
    (∃ t, step (next (.read 0x0014#16 4) plain) = .next t ∧ plain.herr = false ∧ t.herr = true) ∧
      ∃ t, step (next (.write 0x0000#16 4 0#32) plain) = .next t ∧ plain.herr = false ∧ t.herr = true :=
  ⟨⟨_, rfl, by decide +kernel⟩, ⟨_, rfl, by decide +kernel⟩⟩

end Sys2Proof.Tests
end

section
/-! PROOFS. Scope: the state after reset meets the invariant, at every capacity the spec allows. -/

namespace Sys2Proof.Machine

/-- The one place where the reset values of R54 meet the invariant. The digits are the store's form (`atReset_wf`); every
length is 0, MOD is not valid, ERR and ERRCODE are both clear and no command is pending. -/
theorem atReset_inv (cap draw : Nat) (sch : List Event) (rd : List Word) (hmin : Config.minCap ≤ cap)
    (hmax : cap ≤ Config.maxCap) : Inv (State.atReset cap draw sch rd) where
  cap_range := ⟨hmin, hmax⟩
  buf_digits := (atReset_wf cap draw sch rd).1
  buf_len i := by simp
  mod_digits := (atReset_wf cap draw sch rd).2
  mod_len := Nat.zero_le cap
  mod_valid hvalid := nomatch hvalid
  mod_unset _ := rfl
  err_code := by simp [State.atReset]
  busy_clear hbusy := nomatch hbusy

/-- Settles O3: the reference machine is the reset machine of capacity 64, and `atReset_inv` covers every capacity. -/
theorem resetMeetsInv : Obligations.ResetMeetsInv :=
  ⟨atReset_inv Config.referenceCap 0 [] [] (by decide) (by decide), atReset_inv⟩

end Sys2Proof.Machine
end

section
/-! PROOFS. Scope: the invariant under every update of the state, every command and every step (R30, R31, R35, R47, R48). -/

namespace Sys2Proof.Machine

/-! ## What the digits below a length determine -/

/-- The top significant digit lies below the length. -/
theorem getD_take_pred (ds : List Byte) (n : Nat) (hn : n ≠ 0) : (ds.take n).getD (n - 1) 0#8 = ds.getD (n - 1) 0#8 := by
  rw [List.getD_eq_getElem?_getD, List.getElem?_take_of_lt (by omega), ← List.getD_eq_getElem?_getD]

/-- Canonical form does not look at or above the length (R18, R55). -/
theorem isCanonical_congr {ds es : List Byte} {n : Nat} (h : ds.take n = es.take n) :
    isCanonical ds n = isCanonical es n := by
  by_cases hn : n = 0
  · simp [isCanonical, hn]
  · simp only [isCanonical, ← getD_take_pred ds n hn, ← getD_take_pred es n hn, h]

/-- The digits below a top digit add less than one of it. -/
theorem digitsVal_take_succ_lt (ds : List Byte) (n : Nat) :
    digitsVal (ds.take (n + 1)) < ((ds.getD n 0#8).toNat + 1) * 256 ^ n := by
  induction n generalizing ds with
  | zero => cases ds <;> simp
  | succ n ih =>
    cases ds with
    | nil => simp
    | cons d ds =>
      have hd := d.isLt
      have hds := ih ds
      simp only [List.take_succ_cons, digitsVal_cons, List.getD_cons_succ, pow_succ, ← mul_assoc]
      omega

/-! ## The values commands write fit CAP digits -/

theorem Inv.val_lt {s : State} (h : Inv s) (i : BufId) : s.val i < 256 ^ s.cap :=
  (s.buf i).val_lt.trans_le (Nat.pow_le_pow_right (by omega) (h.buf_len i))

/-- R162's upper bound. -/
theorem State.mul_val_lt (s : State) (a b : BufId) (h : s.len a + s.len b ≤ s.cap) :
    s.val a * s.val b < 256 ^ s.cap :=
  calc s.val a * s.val b < 256 ^ s.len a * 256 ^ s.len b :=
        Nat.mul_lt_mul'' (s.buf a).val_lt (s.buf b).val_lt
    _ = 256 ^ (s.len a + s.len b) := (pow_add _ _ _).symm
    _ ≤ 256 ^ s.cap := Nat.pow_le_pow_right (by omega) h

/-- The capacity check of SHL (R164) is enough: below CAP digits a shift by less than a digit always fits, and at CAP digits the
top digit has room for it. -/
theorem Buffer.shl_val_lt (b : Buffer) (n : ShiftCount) {cap : Nat} (hpos : b.len ≠ 0) (hcap : b.len ≤ cap)
    (hfit : b.len = cap → b.topDigit.toNat / 2 ^ (8 - n.val) = 0) : b.val * 2 ^ n.val < 256 ^ cap := by
  have hn := n.isLt
  rcases hcap.lt_or_eq with hlt | rfl
  · calc b.val * 2 ^ n.val < 256 ^ b.len * 2 ^ 8 :=
          Nat.mul_lt_mul'' b.val_lt (Nat.pow_lt_pow_right (by omega) hn)
      _ = 256 ^ (b.len + 1) := (pow_succ _ _).symm
      _ ≤ 256 ^ cap := Nat.pow_le_pow_right (by omega) hlt
  · have htop : b.topDigit.toNat + 1 ≤ 2 ^ (8 - n.val) :=
      (Nat.div_eq_zero_iff_lt (by positivity)).1 (hfit rfl)
    have hval : b.val < (b.topDigit.toNat + 1) * 256 ^ (b.len - 1) := by
      have := digitsVal_take_succ_lt b.digits (b.len - 1)
      rwa [Nat.sub_add_cancel (by omega)] at this
    calc b.val * 2 ^ n.val < (b.topDigit.toNat + 1) * 256 ^ (b.len - 1) * 2 ^ n.val :=
          Nat.mul_lt_mul_of_pos_right hval (by positivity)
      _ ≤ 2 ^ (8 - n.val) * 256 ^ (b.len - 1) * 2 ^ n.val := by gcongr
      _ = 2 ^ (8 - n.val + n.val) * 256 ^ (b.len - 1) := by rw [pow_add]; ring
      _ = 256 ^ (b.len - 1 + 1) := by rw [Nat.sub_add_cancel hn.le, pow_succ' 256]; norm_num
      _ = 256 ^ b.len := by rw [Nat.sub_add_cancel (by omega)]

theorem Inv.modVal_lt {s : State} (h : Inv s) : s.modVal < 256 ^ s.cap :=
  (digitsVal_lt _).trans_le (Nat.pow_le_pow_right (by omega) (by simp [h.mod_digits]))

/-- Settles O6: a canonical number of `len` digits is at least `256 ^ (len - 1)`, and MOD has two or more. -/
theorem validModulusIsAtLeast256 : Obligations.ValidModulusIsAtLeast256 := by
  intro s h hvalid
  obtain ⟨hcanon, hlen⟩ := h.mod_valid hvalid
  calc 256 = 256 ^ 1 := rfl
    _ ≤ 256 ^ (s.modulus.len - 1) := Nat.pow_le_pow_right (by omega) (by omega)
    _ ≤ s.modVal := Buffer.le_val_of_canonical ⟨s.modulus.digits, s.modulus.len⟩ hcanon (by simp; omega)

/-- One exponent bit keeps the accumulator below the modulus. -/
theorem modExpStep_lt {base N : Nat} (hN : 0 < N) (st : Nat × Bool) (bit : Bool) (h : st.1 < N) :
    (modExpStep base N st bit).1 < N := by
  have hsq : (if st.2 then st.1 * st.1 % N else st.1) < N := by
    split
    · exact Nat.mod_lt _ hN
    · exact h
  cases bit with
  | false => exact hsq
  | true => exact Nat.mod_lt _ hN

/-- The controller's result is below a modulus greater than 1 (R205). -/
theorem modExp_lt (base : Nat) {N : Nat} (hN : 1 < N) (e : List Byte) : modExp base N e < N :=
  List.foldlRecOn (motive := fun st : Nat × Bool => st.1 < N) _ _ hN
    fun st h bit _ => modExpStep_lt (by omega) st bit h

/-! ## Every update of the state keeps the invariant -/

section
variable {s : State} (h : Inv s)
include h

/-- The invariant of a state that holds the same digits: only its STATUS part is left to show. -/
theorem Inv.of_same_digits {t : State} (hcap : t.cap = s.cap) (hbufs : t.bufs = s.bufs) (hmod : t.modulus = s.modulus)
    (herr : t.err = true ↔ t.errcode ≠ .none) (hbusy : t.busy = true → t.done = false ∧ t.err = false) : Inv t where
  cap_range := hcap ▸ h.cap_range
  buf_digits i := by simpa only [State.buf, hbufs, hcap] using h.buf_digits i
  buf_len i := by simpa only [State.len, State.buf, hbufs, hcap] using h.buf_len i
  mod_digits := by rw [hmod, hcap, h.mod_digits]
  mod_len := by rw [hmod, hcap]; exact h.mod_len
  mod_valid := hmod ▸ h.mod_valid
  mod_unset := hmod ▸ h.mod_unset
  err_code := herr
  busy_clear := hbusy

theorem Inv.withSchedule (rest : List Event) : Inv { s with schedule := rest } :=
  h.of_same_digits rfl rfl rfl h.err_code h.busy_clear

theorem Inv.withResults (res carry rem : Byte) : Inv { s with res := res, carry := carry, rem := rem } :=
  h.of_same_digits rfl rfl rfl h.err_code h.busy_clear

theorem Inv.refuseAccess : Inv s.refuseAccess := h.of_same_digits rfl rfl rfl h.err_code h.busy_clear

theorem Inv.answerRead (v : Word) : Inv (s.answerRead v) := h.of_same_digits rfl rfl rfl h.err_code h.busy_clear

theorem Inv.accept (w : Word) : Inv (s.accept w) := h.of_same_digits rfl rfl rfl (by simp) (by simp)

theorem Inv.complete : Inv s.complete := h.of_same_digits rfl rfl rfl h.err_code (by simp)

theorem Inv.failWith {c : ErrCode} (hc : c ≠ .none) : Inv (s.failWith c) :=
  h.of_same_digits rfl rfl rfl (by simp [hc]) (by simp)

/-- ERR and ERRCODE are cleared together (R82). -/
theorem Inv.clearStatus (v : Word) : Inv (s.clearStatus v) := by
  refine h.of_same_digits rfl rfl rfl ?_ fun hbusy => ?_
  · cases hv : v.getLsbD 2 <;> simp only [State.clearStatus, hv] <;> simp [h.err_code]
  · obtain ⟨hdone, herr⟩ := h.busy_clear hbusy
    simp [hdone, herr]

theorem Inv.setBuf (i : BufId) {b : Buffer} (hdigits : b.digits.length = s.cap) (hlen : b.len ≤ s.cap) :
    Inv (s.setBuf i b) where
  cap_range := h.cap_range
  buf_digits := (setBuf_wf h.digitStore i b hdigits).1
  buf_len k := by
    rw [State.len, State.setBuf_buf]
    split
    · exact hlen
    · exact h.buf_len k
  mod_digits := h.mod_digits
  mod_len := h.mod_len
  mod_valid := h.mod_valid
  mod_unset := h.mod_unset
  err_code := h.err_code
  busy_clear := h.busy_clear

theorem Inv.setLen (i : BufId) {n : Nat} (hn : n ≤ s.cap) : Inv (s.setLen i n) := h.setBuf i (h.buf_digits i) hn

theorem Inv.setDigit (i : BufId) (j : Nat) (d : Byte) : Inv (s.setDigit i j d) :=
  h.setBuf i (by simpa using h.buf_digits i) (h.buf_len i)

theorem Inv.setval (d : BufId) {v : Nat} (hv : v < 256 ^ s.cap) : Inv (s.setval d v) :=
  (h.setBuf d (canonicalBuffer_digits_length _ s.draws _ hv) (canonicalBuffer_len_le _ _ _ hv)).of_same_digits
    rfl rfl rfl h.err_code h.busy_clear

/-- What SETMOD checks of its operand is what R35 asks of MOD. -/
theorem Inv.installModulus (a : BufId) (hcanon : s.canonical a = true) (hlen : 2 ≤ s.len a) :
    Inv (s.installModulus (s.buf a)) := by
  obtain ⟨-, -, hdigits, -, hlength⟩ := installModulus_spec s (s.buf a) (h.buf_digits a) (h.buf_len a)
  exact {
    cap_range := h.cap_range
    buf_digits := h.buf_digits
    buf_len := h.buf_len
    mod_digits := hlength
    mod_len := h.buf_len a
    mod_valid := fun _ => ⟨(isCanonical_congr hdigits).trans hcanon, hlen⟩
    mod_unset := nofun
    err_code := h.err_code
    busy_clear := h.busy_clear }

theorem Inv.takeReset : Inv s.takeReset := atReset_inv _ _ _ _ h.cap_range.1 h.cap_range.2

/-! ## Every command keeps the invariant -/

variable {t : State}

theorem Inv.raise {c : ErrCode} (ht : raise c s = .next t) (hc : c ≠ .none := by decide) : Inv t := by
  cases ht; exact h.failWith hc

theorem Inv.finish (ht : finish s = .next t) : Inv t := by
  cases ht; exact h.complete

theorem Inv.execMac {a b c : Byte} (ht : execMac a b c s = .next t) : Inv t := (h.withResults _ _ s.rem).finish ht

theorem Inv.execSdiv {lo dv : Byte} (ht : execSdiv lo dv s = .next t) : Inv t := by
  unfold Machine.execSdiv at ht
  split_ifs at ht
  · exact h.raise ht
  · exact (h.withResults _ s.carry _).finish ht

theorem Inv.execMul {d a b : BufId} (ht : execMul d a b s = .next t) : Inv t := by
  unfold Machine.execMul at ht
  split_ifs at ht with _ _ hfit
  · exact h.raise ht
  · exact h.raise ht
  · exact h.raise ht
  · exact (h.setval d (s.mul_val_lt a b (by omega))).finish ht

theorem Inv.execShl {d : BufId} {n : ShiftCount} (ht : execShl d n s = .next t) : Inv t := by
  unfold Machine.execShl at ht
  split_ifs at ht with _ hzero hfit
  · exact h.raise ht
  · exact h.finish ht
  · exact h.raise ht
  · refine (h.setval d ((s.buf d).shl_val_lt n (fun hlen => hzero (.inr hlen)) (h.buf_len d) fun hlen => ?_)).finish ht
    by_contra htop
    exact hfit ⟨hlen, htop⟩

theorem Inv.execShr {d : BufId} {n : ShiftCount} (ht : execShr d n s = .next t) : Inv t := by
  unfold Machine.execShr at ht
  split_ifs at ht
  · exact h.raise ht
  · exact h.finish ht
  · exact (h.setval d ((Nat.div_le_self _ _).trans_lt (h.val_lt d))).finish ht

theorem Inv.execReduce {d a : BufId} (ht : execReduce d a s = .next t) : Inv t := by
  unfold Machine.execReduce at ht
  split_ifs at ht
  · exact h.raise ht
  · exact h.raise ht
  · exact h.raise ht
  · exact h.finish ht
  · exact (h.setval d ((Nat.mod_le _ _).trans_lt (h.val_lt d))).finish ht

theorem Inv.execSetmod {a : BufId} (ht : execSetmod a s = .next t) : Inv t := by
  unfold Machine.execSetmod at ht
  split_ifs at ht with hcanon hlen
  · exact h.raise ht
  · exact h.raise ht
  · exact (h.installModulus a (by simpa using hcanon) (by omega)).finish ht

theorem Inv.execModmul {d a : BufId} (ht : execModmul d a s = .next t) : Inv t := by
  unfold Machine.execModmul at ht
  split_ifs at ht with hvalid
  · exact h.raise ht
  · exact h.raise ht
  · have hN := validModulusIsAtLeast256 s h (by simpa using hvalid)
    exact (h.setval d ((Nat.mod_lt _ (by omega)).trans h.modVal_lt)).finish ht

theorem Inv.execModexp {d a b : BufId} (ht : execModexp d a b s = .next t) : Inv t := by
  unfold Machine.execModexp at ht
  split_ifs at ht with hvalid
  · exact h.raise ht
  · exact h.raise ht
  · exact h.raise ht
  · have hN := validModulusIsAtLeast256 s h (by simpa using hvalid)
    exact (h.setval d ((modExp_lt _ (by omega) _).trans h.modVal_lt)).finish ht

theorem Inv.exec {i : Instr} (ht : exec i s = .next t) : Inv t := by
  cases i with
  | nop => exact h.finish ht
  | mac a b c => exact h.execMac ht
  | sdiv lo dv => exact h.execSdiv ht
  | mul d a b => exact h.execMul ht
  | shl d n => exact h.execShl ht
  | shr d n => exact h.execShr ht
  | reduce d a => exact h.execReduce ht
  | setmod a => exact h.execSetmod ht
  | modmul d a => exact h.execModmul ht
  | modexp d a b => exact h.execModexp ht

/-! ## Every host access keeps the invariant -/

theorem Inv.hostRead (addr : PortAddr) (n : Nat) : Inv (hostRead s addr n) := by
  rcases hostRead_cases s addr n with hr | ⟨v, hr⟩
  · rw [hr]; exact h.refuseAccess.answerRead _
  · rw [hr]; exact h.answerRead v

theorem Inv.hostWrite (addr : PortAddr) (n : Nat) (v : Word) : Inv (hostWrite s addr n v) := by
  rcases hostWrite_cases s addr n v with
    hw | ⟨-, _, -, ⟨-, hw⟩ | ⟨-, hw⟩ | ⟨-, hw⟩ | ⟨i, -, hlen, hw⟩ | ⟨i, j, -, hw⟩⟩
  · rw [hw]; exact h.refuseAccess
  · rw [hw]; exact h.clearStatus v
  · rw [hw]; exact h.accept v
  · rw [hw]; exact h.withResults _ _ _
  · rw [hw]; exact h.setLen i hlen
  · rw [hw]; exact h.setDigit i j _

end

/-! ## What a step is -/

/-- The engine moves in the next step, by the schedule or because no event is left, and `rest` stays to come (R257). -/
def EngineNext (s : State) (rest : List Event) : Prop :=
  s.schedule = [] ∧ rest = [] ∨ s.schedule = .engine :: rest

theorem EngineNext.schedule {s : State} {rest : List Event} (h : EngineNext s rest) :
    s.schedule = [] ∨ ∃ rest, s.schedule = .engine :: rest := by
  rcases h with ⟨hnil, -⟩ | hcons
  · exact .inl hnil
  · exact .inr ⟨rest, hcons⟩

/-- Everything a step from `s` to `t` can be (R257). -/
inductive StepForm (s : State) : State → Prop where
  /-- The engine has nothing to do. -/
  | idle (rest : List Event) (hnext : EngineNext s rest) (hpend : s.pend = none) :
      StepForm s { s with schedule := rest }
  /-- The engine finds that the pending word is no command (R125). -/
  | decodeError (rest : List Event) (w : Word) (e : DecodeError) (hnext : EngineNext s rest) (hpend : s.pend = some w)
      (hdecode : decode w = .error e) : StepForm s (State.failWith { s with schedule := rest } (decodeErrCode e))
  /-- The engine executes the pending command. -/
  | command {t : State} (rest : List Event) (w : Word) (i : Instr) (hnext : EngineNext s rest)
      (hpend : s.pend = some w) (hdecode : decode w = .ok i) (hexec : exec i { s with schedule := rest } = .next t) :
      StepForm s t
  | read (addr : PortAddr) (n : Nat) (rest : List Event) (hsched : s.schedule = .read addr n :: rest) :
      StepForm s (hostRead { s with schedule := rest } addr n)
  | write (addr : PortAddr) (n : Nat) (v : Word) (rest : List Event) (hsched : s.schedule = .write addr n v :: rest) :
      StepForm s (hostWrite { s with schedule := rest } addr n v)
  | reset (rest : List Event) (hsched : s.schedule = .reset :: rest) :
      StepForm s (State.takeReset { s with schedule := rest })

theorem engineStep_of_idle {s : State} (hpend : s.pend = none) : engineStep s = .next s := by
  simp only [engineStep, hpend]

theorem engineStep_of_decodeError {s : State} {w : Word} {e : DecodeError} (hpend : s.pend = some w)
    (hdecode : decode w = .error e) : engineStep s = .next (s.failWith (decodeErrCode e)) := by
  simp only [engineStep, hpend, hdecode, raise]

theorem engineStep_of_command {s : State} {w : Word} {i : Instr} (hpend : s.pend = some w)
    (hdecode : decode w = .ok i) : engineStep s = exec i s := by
  simp only [engineStep, hpend, hdecode]

theorem stepForm_of_engineStep {s t : State} (rest : List Event) (hnext : EngineNext s rest)
    (ht : engineStep { s with schedule := rest } = .next t) : StepForm s t := by
  cases hpend : s.pend with
  | none =>
    rw [engineStep_of_idle (s := { s with schedule := rest }) hpend] at ht
    cases ht; exact .idle rest hnext hpend
  | some w =>
    cases hdecode : decode w with
    | error e =>
      rw [engineStep_of_decodeError (s := { s with schedule := rest }) hpend hdecode] at ht
      cases ht; exact .decodeError rest w e hnext hpend hdecode
    | ok i =>
      rw [engineStep_of_command (s := { s with schedule := rest }) hpend hdecode] at ht
      exact .command rest w i hnext hpend hdecode ht

theorem stepForm_of_step {s t : State} (ht : step s = .next t) : StepForm s t := by
  rcases step_cases s with
    ⟨hs, h⟩ | ⟨rest, hs, h⟩ | ⟨addr, n, rest, hs, h⟩ | ⟨addr, n, v, rest, hs, h⟩ | ⟨rest, hs, h⟩
  · have hnil : step s = engineStep { s with schedule := [] } := by rw [h, ← hs]
    exact stepForm_of_engineStep [] (.inl ⟨hs, rfl⟩) (hnil.symm.trans ht)
  · exact stepForm_of_engineStep rest (.inr hs) (h.symm.trans ht)
  · cases h.symm.trans ht; exact .read addr n rest hs
  · cases h.symm.trans ht; exact .write addr n v rest hs
  · cases h.symm.trans ht; exact .reset rest hs

/-- Settles O4: each form of a step keeps the invariant. -/
theorem stepKeepsInv : Obligations.StepKeepsInv := by
  intro s t h ht
  cases stepForm_of_step ht with
  | idle rest hnext hpend => exact h.withSchedule rest
  | decodeError rest w e hnext hpend hdecode => exact (h.withSchedule rest).failWith (by cases e <;> nofun)
  | command rest w i hnext hpend hdecode hexec => exact (h.withSchedule rest).exec hexec
  | read addr n rest hsched => exact (h.withSchedule rest).hostRead addr n
  | write addr n v rest hsched => exact (h.withSchedule rest).hostWrite addr n v
  | reset rest hsched => exact (h.withSchedule rest).takeReset

end Sys2Proof.Machine
end

section
/-! PROOFS. Scope: commands read nothing of a buffer register or of MOD but the digits below its length (R55). -/

namespace Sys2Proof.Machine

/-! ## What two states that differ in stale digits agree in -/

section
variable {s s' : State} (h : SameButStaleDigits s s')
include h

theorem SameButStaleDigits.significant_eq (i : BufId) : (s.buf i).significant = (s'.buf i).significant := by
  obtain ⟨hbufs, -⟩ := h
  exact (hbufs i).1

theorem SameButStaleDigits.len_eq (i : BufId) : s.len i = s'.len i := by
  obtain ⟨hbufs, -⟩ := h
  exact (hbufs i).2

theorem SameButStaleDigits.val_eq (i : BufId) : s.val i = s'.val i := congrArg digitsVal (h.significant_eq i)

theorem SameButStaleDigits.digits_take_eq (i : BufId) :
    (s.buf i).digits.take (s'.len i) = (s'.buf i).digits.take (s'.len i) :=
  calc (s.buf i).digits.take (s'.len i) = (s.buf i).significant := by rw [← h.len_eq i]; rfl
    _ = (s'.buf i).significant := h.significant_eq i

theorem SameButStaleDigits.canonical_eq (i : BufId) : s.canonical i = s'.canonical i := by
  have hlen : (s.buf i).len = (s'.buf i).len := h.len_eq i
  rw [State.canonical, Buffer.canonical, hlen]
  exact isCanonical_congr (h.digits_take_eq i)

/-- The top digit is a stale one where the length is 0. -/
theorem SameButStaleDigits.topDigit_eq (i : BufId) (hlen : s'.len i ≠ 0) :
    (s.buf i).topDigit = (s'.buf i).topDigit := by
  have hlens : (s.buf i).len = s'.len i := h.len_eq i
  calc (s.buf i).topDigit = (s.buf i).digits.getD (s'.len i - 1) 0#8 := by rw [Buffer.topDigit, hlens]
    _ = ((s.buf i).digits.take (s'.len i)).getD (s'.len i - 1) 0#8 := (getD_take_pred _ _ hlen).symm
    _ = ((s'.buf i).digits.take (s'.len i)).getD (s'.len i - 1) 0#8 := by rw [h.digits_take_eq i]
    _ = (s'.buf i).topDigit := getD_take_pred _ _ hlen

theorem SameButStaleDigits.modVal_eq : s.modVal = s'.modVal := by
  obtain ⟨-, hmod, -⟩ := h
  exact congrArg digitsVal hmod

theorem SameButStaleDigits.valid_eq : s.modulus.valid = s'.modulus.valid := by
  obtain ⟨-, -, -, hvalid, -⟩ := h
  exact hvalid

theorem SameButStaleDigits.carry_eq : s.carry = s'.carry := by
  obtain ⟨-, -, -, -, ⟨-, hcarry, -⟩, -⟩ := h
  exact hcarry.symm

theorem SameButStaleDigits.rem_eq : s.rem = s'.rem := by
  obtain ⟨-, -, -, -, ⟨-, -, hrem⟩, -⟩ := h
  exact hrem.symm

theorem SameButStaleDigits.cap_eq : s.cap = s'.cap := by
  obtain ⟨-, -, -, -, -, ⟨hcap, -⟩, -⟩ := h
  exact hcap.symm

/-! ## Every effect of a command keeps the agreement -/

theorem SameButStaleDigits.complete : SameButStaleDigits s.complete s'.complete := by
  obtain ⟨hbufs, hmod, hlen, hvalid, hscalars, hsurr, -, herr, hherr, hcode, -⟩ := h
  exact ⟨hbufs, hmod, hlen, hvalid, hscalars, hsurr, rfl, herr, hherr, hcode, rfl⟩

theorem SameButStaleDigits.failWith (c : ErrCode) : SameButStaleDigits (s.failWith c) (s'.failWith c) := by
  obtain ⟨hbufs, hmod, hlen, hvalid, hscalars, hsurr, -, -, hherr, -, -⟩ := h
  exact ⟨hbufs, hmod, hlen, hvalid, hscalars, hsurr, rfl, rfl, hherr, rfl, rfl⟩

theorem SameButStaleDigits.withResults {res res' carry carry' rem rem' : Byte} (hres : res = res')
    (hcarry : carry = carry') (hrem : rem = rem') :
    SameButStaleDigits { s with res := res, carry := carry, rem := rem }
      { s' with res := res', carry := carry', rem := rem' } := by
  obtain ⟨hbufs, hmod, hlen, hvalid, -, hsurr, hstatus⟩ := h
  exact ⟨hbufs, hmod, hlen, hvalid, ⟨hres.symm, hcarry.symm, hrem.symm⟩, hsurr, hstatus⟩

/-- A canonical write stores the same digits up to the same length; the free digits lie above it (R18). -/
theorem SameButStaleDigits.setval (d : BufId) (v : Nat) : SameButStaleDigits (s.setval d v) (s'.setval d v) := by
  obtain ⟨hbufs, hrest⟩ := h
  refine ⟨fun k => ?_, hrest⟩
  simp only [State.len, State.setval_buf]
  split
  · simp
  · exact hbufs k

/-- MOD becomes a copy of the same significant digits (R201). -/
theorem SameButStaleDigits.installModulus (hs : Inv s) (hs' : Inv s') (a : BufId) :
    SameButStaleDigits (s.installModulus (s.buf a)) (s'.installModulus (s'.buf a)) := by
  have hsig := h.significant_eq a
  have hlen := h.len_eq a
  obtain ⟨-, -, htake, -⟩ := installModulus_spec s (s.buf a) (hs.buf_digits a) (hs.buf_len a)
  obtain ⟨-, -, htake', -⟩ := installModulus_spec s' (s'.buf a) (hs'.buf_digits a) (hs'.buf_len a)
  obtain ⟨hbufs, -, -, -, hrest⟩ := h
  exact ⟨hbufs, htake.trans (hsig.trans htake'.symm), hlen, rfl, hrest⟩

end

/-! ## Every command answers alike -/

/-- Two outcomes are next states that differ at most in stale digits. -/
def AnswerAlike (r r' : Result) : Prop := ∃ t t', r = .next t ∧ r' = .next t' ∧ SameButStaleDigits t t'

section
variable {s s' : State} (h : SameButStaleDigits s s')
include h

theorem SameButStaleDigits.raise (c : ErrCode) : AnswerAlike (raise c s) (raise c s') :=
  ⟨_, _, rfl, rfl, h.failWith c⟩

theorem SameButStaleDigits.finish : AnswerAlike (finish s) (finish s') := ⟨_, _, rfl, rfl, h.complete⟩

theorem SameButStaleDigits.execMac (a b c : Byte) : AnswerAlike (execMac a b c s) (execMac a b c s') := by
  simp only [Machine.execMac, h.carry_eq]
  exact (h.withResults rfl rfl h.rem_eq).finish

theorem SameButStaleDigits.execSdiv (lo dv : Byte) : AnswerAlike (execSdiv lo dv s) (execSdiv lo dv s') := by
  simp only [Machine.execSdiv, h.rem_eq]
  split_ifs
  · exact h.raise _
  · exact (h.withResults rfl h.carry_eq rfl).finish

theorem SameButStaleDigits.execMul (d a b : BufId) : AnswerAlike (execMul d a b s) (execMul d a b s') := by
  simp only [Machine.execMul, h.canonical_eq, h.cap_eq, h.len_eq, h.val_eq]
  split_ifs
  · exact h.raise _
  · exact h.raise _
  · exact h.raise _
  · exact (h.setval d _).finish

/-- SHL looks at the top digit only of a shift that is not zero (R164). -/
theorem SameButStaleDigits.execShl (d : BufId) (n : ShiftCount) : AnswerAlike (execShl d n s) (execShl d n s') := by
  simp only [Machine.execShl, h.canonical_eq, h.cap_eq, h.len_eq, h.val_eq]
  by_cases hzero : n.val = 0 ∨ s'.len d = 0
  · simp only [if_pos hzero]
    split_ifs
    · exact h.raise _
    · exact h.finish
  · simp only [if_neg hzero, h.topDigit_eq d fun hlen => hzero (.inr hlen)]
    split_ifs
    · exact h.raise _
    · exact h.raise _
    · exact (h.setval d _).finish

theorem SameButStaleDigits.execShr (d : BufId) (n : ShiftCount) : AnswerAlike (execShr d n s) (execShr d n s') := by
  simp only [Machine.execShr, h.canonical_eq, h.len_eq, h.val_eq]
  split_ifs
  · exact h.raise _
  · exact h.finish
  · exact (h.setval d _).finish

theorem SameButStaleDigits.execReduce (d a : BufId) : AnswerAlike (execReduce d a s) (execReduce d a s') := by
  simp only [Machine.execReduce, h.canonical_eq, h.len_eq, h.val_eq]
  split_ifs
  · exact h.raise _
  · exact h.raise _
  · exact h.raise _
  · exact h.finish
  · exact (h.setval d _).finish

theorem SameButStaleDigits.execSetmod (hs : Inv s) (hs' : Inv s') (a : BufId) :
    AnswerAlike (execSetmod a s) (execSetmod a s') := by
  simp only [Machine.execSetmod, h.canonical_eq, h.len_eq]
  split_ifs
  · exact h.raise _
  · exact h.raise _
  · exact (h.installModulus hs hs' a).finish

theorem SameButStaleDigits.execModmul (d a : BufId) : AnswerAlike (execModmul d a s) (execModmul d a s') := by
  simp only [Machine.execModmul, h.valid_eq, h.canonical_eq, h.val_eq, h.modVal_eq]
  split_ifs
  · exact h.raise _
  · exact h.raise _
  · exact (h.setval d _).finish

theorem SameButStaleDigits.execModexp (d a b : BufId) : AnswerAlike (execModexp d a b s) (execModexp d a b s') := by
  simp only [Machine.execModexp, h.valid_eq, h.canonical_eq, h.val_eq, h.modVal_eq, h.significant_eq]
  split_ifs
  · exact h.raise _
  · exact h.raise _
  · exact h.raise _
  · exact (h.setval d _).finish

theorem SameButStaleDigits.exec (hs : Inv s) (hs' : Inv s') (i : Instr) : AnswerAlike (exec i s) (exec i s') := by
  cases i with
  | nop => exact h.finish
  | mac a b c => exact h.execMac a b c
  | sdiv lo dv => exact h.execSdiv lo dv
  | mul d a b => exact h.execMul d a b
  | shl d n => exact h.execShl d n
  | shr d n => exact h.execShr d n
  | reduce d a => exact h.execReduce d a
  | setmod a => exact h.execSetmod hs hs' a
  | modmul d a => exact h.execModmul d a
  | modexp d a b => exact h.execModexp d a b

end

/-- Settles O38: the checks and the results of each command are functions of the significant digits, the lengths, MOD's
value and the scalars. -/
theorem staleDigitsDoNotAffectCommands : Obligations.StaleDigitsDoNotAffectCommands := by
  intro i s s' t t' hs hs' h ht ht'
  obtain ⟨u, u', hu, hu', hsame⟩ := h.exec hs hs' i
  cases hu.symm.trans ht
  cases hu'.symm.trans ht'
  exact hsame

end Sys2Proof.Machine
end

section
/-! PROOFS. Scope: what each command may write, what each host access may change, and which steps change CAP, MOD, CARRY, REM and
HERR (R31, R33, R35, R36, R41, R42, R49); the values of R54. -/

namespace Sys2Proof.Machine

/-! ## The frame of a command -/

/-- Settles O37: each of the six ways a command can answer leaves its own items and STATUS to change. -/
theorem commandsWriteOnlyTheirItems : Obligations.CommandsWriteOnlyTheirItems := by
  intro i s t ht
  rcases exec_cases i s with ⟨c, h⟩ | h | ⟨a, b, c, rfl, h⟩ | ⟨lo, dv, rfl, -, h⟩ | ⟨d, v, hd, h⟩ | ⟨a, rfl, h⟩
  · cases h.symm.trans ht
    exact ⟨fun _ _ => rfl, fun _ => .inl rfl, ⟨rfl, rfl, rfl⟩, rfl, fun _ => rfl, fun _ => rfl, fun _ => rfl, fun _ _ => rfl⟩
  · cases h.symm.trans ht
    exact ⟨fun _ _ => rfl, fun _ => .inl rfl, ⟨rfl, rfl, rfl⟩, rfl, fun _ => rfl, fun _ => rfl, fun _ => rfl, fun _ _ => rfl⟩
  · cases h.symm.trans ht
    exact ⟨fun _ _ => rfl, fun _ => .inl rfl, ⟨rfl, rfl, rfl⟩, rfl, fun _ => rfl, fun hne => absurd rfl (hne a b c),
      fun _ => rfl, fun hne => absurd rfl (hne a b c)⟩
  · cases h.symm.trans ht
    exact ⟨fun _ _ => rfl, fun _ => .inl rfl, ⟨rfl, rfl, rfl⟩, rfl, fun _ => rfl, fun _ => rfl,
      fun hne => absurd rfl (hne lo dv), fun _ hne => absurd rfl (hne lo dv)⟩
  · cases h.symm.trans ht
    refine ⟨fun k hk => ?_, fun k => ?_, ⟨rfl, rfl, rfl⟩, rfl, fun _ => rfl, fun _ => rfl, fun _ => rfl, fun _ _ => rfl⟩
    · exact State.setval_buf_other s d k v fun hkd => hk (hkd ▸ hd)
    · by_cases hkd : k = d
      · exact .inr (by simp [State.canonical, hkd])
      · exact .inl (State.setval_buf_other s d k v hkd)
  · cases h.symm.trans ht
    exact ⟨fun _ _ => rfl, fun _ => .inl rfl, ⟨rfl, rfl, rfl⟩, rfl, fun hne => absurd rfl (hne a), fun _ => rfl,
      fun _ => rfl, fun _ _ => rfl⟩

section
variable {i : Instr} {s t : State} (ht : exec i s = .next t)
include ht

theorem exec_cap : t.cap = s.cap := by
  obtain ⟨-, -, ⟨hcap, -⟩, -⟩ := commandsWriteOnlyTheirItems i s t ht
  exact hcap

theorem exec_herr : t.herr = s.herr := by
  obtain ⟨-, -, -, hherr, -⟩ := commandsWriteOnlyTheirItems i s t ht
  exact hherr

theorem exec_modulus_changed (hne : t.modulus ≠ s.modulus) : ∃ a, i = .setmod a := by
  obtain ⟨-, -, -, -, hmod, -⟩ := commandsWriteOnlyTheirItems i s t ht
  by_contra hno
  exact hne (hmod fun a hi => hno ⟨a, hi⟩)

theorem exec_carry_changed (hne : t.carry ≠ s.carry) : ∃ a b c, i = .mac a b c := by
  obtain ⟨-, -, -, -, -, hcarry, -⟩ := commandsWriteOnlyTheirItems i s t ht
  by_contra hno
  exact hne (hcarry fun a b c hi => hno ⟨a, b, c, hi⟩)

theorem exec_rem_changed (hne : t.rem ≠ s.rem) : ∃ lo dv, i = .sdiv lo dv := by
  obtain ⟨-, -, -, -, -, -, hrem, -⟩ := commandsWriteOnlyTheirItems i s t ht
  by_contra hno
  exact hne (hrem fun lo dv hi => hno ⟨lo, dv, hi⟩)

end

/-! ## The address map (R71) -/

/-- The items of the register region are found 4 bytes wide in that region only. -/
theorem portItem_of_register {cap : Nat} {addr : PortAddr} {n : Nat} {it : PortItem} (hp : portItem cap addr n = some it)
    (hdigit : ∀ i j, it ≠ .digit i j) (hmod : ∀ j, it ≠ .modDigit j) : n = 4 ∧ registerItem addr.toNat = some it := by
  unfold portItem digitItem at hp
  split_ifs at hp with _ hshape
  · exact ⟨hshape.1, hp⟩
  · cases hp; exact absurd rfl (hdigit _ _)
  · cases hp; exact absurd rfl (hmod _)

/-- The items of the register region, each at its own address. -/
theorem registerItem_cases {a : Nat} {it : PortItem} (h : registerItem a = some it) :
    it = .config ∧ a = 0x0000 ∨ it = .status ∧ a = 0x0004 ∨ it = .cmd ∧ a = 0x0008 ∨ it = .scalar ∧ a = 0x000C ∨
      it = .mlen ∧ a = 0x0010 ∨ ∃ i, it = .len i := by
  unfold registerItem at h
  split_ifs at h <;> cases h <;> simp [*]

/-- STATUS stands at 0x0004 and nowhere else. -/
theorem portItem_status {cap : Nat} {addr : PortAddr} {n : Nat} (hp : portItem cap addr n = some .status) :
    addr = 0x0004#16 ∧ n = 4 := by
  obtain ⟨hn, hreg⟩ := portItem_of_register hp nofun nofun
  exact ⟨BitVec.eq_of_toNat_eq (by simpa using registerItem_cases hreg), hn⟩

/-- SCALAR stands at 0x000C and nowhere else. -/
theorem portItem_scalar {cap : Nat} {addr : PortAddr} {n : Nat} (hp : portItem cap addr n = some .scalar) :
    addr = 0x000C#16 ∧ n = 4 := by
  obtain ⟨hn, hreg⟩ := portItem_of_register hp nofun nofun
  exact ⟨BitVec.eq_of_toNat_eq (by simpa using registerItem_cases hreg), hn⟩

/-- CONFIG stands at 0x0000. -/
theorem portItem_config (cap : Nat) : portItem cap 0x0000#16 4 = some .config := rfl

/-! ## What host accesses change -/

/-- A read changes nothing but HERR and the record of reads (R88). -/
theorem hostRead_frame (s : State) (addr : PortAddr) (n : Nat) :
    (hostRead s addr n).cap = s.cap ∧ (hostRead s addr n).modulus = s.modulus ∧ KeepsScalars s (hostRead s addr n) := by
  rcases hostRead_cases s addr n with h | ⟨v, h⟩
  · rw [h]; exact ⟨rfl, rfl, rfl, rfl, rfl⟩
  · rw [h]; exact ⟨rfl, rfl, rfl, rfl, rfl⟩

/-- No write changes CAP or MOD (R36, R76). -/
theorem hostWrite_frame (s : State) (addr : PortAddr) (n : Nat) (v : Word) :
    (hostWrite s addr n v).cap = s.cap ∧ (hostWrite s addr n v).modulus = s.modulus := by
  rcases hostWrite_cases s addr n v with
    h | ⟨-, _, -, ⟨-, h⟩ | ⟨-, h⟩ | ⟨-, h⟩ | ⟨i, -, -, h⟩ | ⟨i, j, -, h⟩⟩
  all_goals rw [h]; exact ⟨rfl, rfl⟩

/-- The scalars change by a write only if it is an idle one of SCALAR (R79, R83). -/
theorem hostWrite_scalars (s : State) (addr : PortAddr) (n : Nat) (v : Word) :
    KeepsScalars s (hostWrite s addr n v) ∨ s.busy = false ∧ addr = 0x000C#16 ∧ n = 4 := by
  rcases hostWrite_cases s addr n v with
    h | ⟨hbusy, it, hp, ⟨-, h⟩ | ⟨-, h⟩ | ⟨rfl, -⟩ | ⟨i, -, -, h⟩ | ⟨i, j, -, h⟩⟩
  case inr.inr.inr.inl => exact .inr ⟨hbusy, portItem_scalar hp⟩
  all_goals rw [h]; exact .inl ⟨rfl, rfl, rfl⟩

/-- A write leaves HERR as it is, or is refused, or is an idle one of STATUS (R49, R82). -/
theorem hostWrite_herr (s : State) (addr : PortAddr) (n : Nat) (v : Word) :
    (hostWrite s addr n v).herr = s.herr ∨ hostWrite s addr n v = s.refuseAccess ∨
      s.busy = false ∧ addr = 0x0004#16 ∧ n = 4 ∧ hostWrite s addr n v = s.clearStatus v := by
  rcases hostWrite_cases s addr n v with
    h | ⟨hbusy, it, hp, ⟨rfl, h⟩ | ⟨-, h⟩ | ⟨-, h⟩ | ⟨i, -, -, h⟩ | ⟨i, j, -, h⟩⟩
  case inl => exact .inr (.inl h)
  case inr.inl =>
    obtain ⟨haddr, hn⟩ := portItem_status hp
    exact .inr (.inr ⟨hbusy, haddr, hn, h⟩)
  all_goals rw [h]; exact .inl rfl

/-! ## Fields of the register words (R15) -/

/-- A field of a register word reads back. -/
theorem extractLsb'_placeAt {n : Nat} (v : BitVec n) (lo : Nat) (h : lo + n ≤ 32) :
    (placeAt v lo).extractLsb' lo n = v := by
  ext j hj
  simp [placeAt, hj, show lo + j < 32 by omega]

/-- A field is no part of the bits below it. -/
theorem extractLsb'_placeAt_below {n : Nat} (v : BitVec n) (lo start len : Nat) (h : start + len ≤ lo) :
    (placeAt v lo).extractLsb' start len = 0#len := by
  ext j hj
  simp [placeAt, show start + j < lo by omega]

/-- A field is no part of the bits above it. -/
theorem extractLsb'_placeAt_above {n : Nat} (v : BitVec n) (lo start len : Nat) (h : lo + n ≤ start) :
    (placeAt v lo).extractLsb' start len = 0#len := by
  ext j hj
  simp [placeAt, show n ≤ start + j - lo by omega]

/-! ## CAP and CONFIG -/

/-- CONFIG's digit capacity, bits 15:0 (R36). -/
theorem configWord_cap (s : State) : s.configWord.extractLsb' 0 16 = BitVec.ofNat 16 s.cap := by
  simp [State.configWord, BitVec.extractLsb'_or, extractLsb'_placeAt, extractLsb'_placeAt_below]

/-- CONFIG's NB, bits 23:16 (R36). -/
theorem configWord_numBuffers (s : State) : s.configWord.extractLsb' 16 8 = 8#8 := by
  simp [State.configWord, Config.numBuffers, BitVec.extractLsb'_or, extractLsb'_placeAt, extractLsb'_placeAt_below,
    extractLsb'_placeAt_above]

/-- CONFIG's VERSION, bits 31:24 (R36). -/
theorem configWord_version (s : State) : s.configWord.extractLsb' 24 8 = 0x01#8 := by
  simp [State.configWord, Config.version, BitVec.extractLsb'_or, extractLsb'_placeAt, extractLsb'_placeAt_above]

/-- CONFIG's constant half, bits 31:16: NB and VERSION together (R36). -/
theorem configWord_constants (s : State) : s.configWord.extractLsb' 16 16 = 0x0108#16 := by
  simp [State.configWord, Config.numBuffers, Config.version, BitVec.extractLsb'_or, extractLsb'_placeAt_above]
  rfl

/-- No step changes CAP (R36). -/
theorem step_cap {s t : State} (ht : step s = .next t) : t.cap = s.cap := by
  cases stepForm_of_step ht with
  | idle rest hnext hpend => rfl
  | decodeError rest w e hnext hpend hdecode => rfl
  | command rest w i hnext hpend hdecode hexec => exact (exec_cap hexec).trans rfl
  | read addr n rest hsched => exact (hostRead_frame _ addr n).1
  | write addr n v rest hsched => exact (hostWrite_frame _ addr n v).1
  | reset rest hsched => rfl

theorem hostRead_config (s : State) : hostRead s 0x0000#16 4 = s.answerRead s.configWord := by
  simp [hostRead, portItem_config, readableWhileBusy, readItem]

theorem hostWrite_config (s : State) (x : Word) : hostWrite s 0x0000#16 4 x = s.refuseAccess := by
  simp [hostWrite, portItem_config, writeItem]

/-- Settles O42: the word is a function of CAP, which no step changes, and CAP fits its field. -/
theorem configIsConstant : Obligations.ConfigIsConstant := by
  refine ⟨fun s t ht => ?_, fun s rest h => ⟨fun hsched => ?_, fun x hsched => ?_⟩⟩
  · have hcap := step_cap ht
    exact ⟨hcap, by rw [State.configWord, State.configWord, hcap]⟩
  · refine ⟨s.configWord, ?_, ?_, configWord_numBuffers s, configWord_version s⟩
    · simp only [step, hsched, takeEvent, hostRead_config]
      rfl
    · obtain ⟨-, hmax⟩ := h.cap_range
      rw [configWord_cap, BitVec.toNat_ofNat, Nat.mod_eq_of_lt (hmax.trans_lt (by decide))]
  · simp only [step, hsched, takeEvent, hostWrite_config]
    rfl

/-! ## Lengths in a run -/

/-- What every reachable state has, by induction over the run. -/
theorem reachable_inv {cap : Nat} {s : State} (hmin : 2 ≤ cap) (hmax : cap ≤ 4096) (h : Reachable cap s) :
    Inv s ∧ s.cap = cap := by
  induction h with
  | reset draw schedule reads => exact ⟨atReset_inv cap draw schedule reads hmin hmax, rfl⟩
  | step _ ht ih =>
    obtain ⟨hinv, hcap⟩ := ih
    exact ⟨stepKeepsInv _ _ hinv ht, (step_cap ht).trans hcap⟩

/-- Settles O5: the invariant holds in every reachable state. -/
theorem reachableLengthsWithinCap : Obligations.ReachableLengthsWithinCap := by
  intro cap s hmin hmax h i
  obtain ⟨hinv, hcap⟩ := reachable_inv hmin hmax h
  exact hcap ▸ hinv.buf_len i

/-! ## Which steps change MOD and the scalars -/

/-- Settles O39: of the forms of a step, only reset and an executed command change MOD. -/
theorem modulusChangesOnlyBySetmodOrReset : Obligations.ModulusChangesOnlyBySetmodOrReset := by
  intro s t ht hne
  cases stepForm_of_step ht with
  | idle rest hnext hpend => exact absurd rfl hne
  | decodeError rest w e hnext hpend hdecode => exact absurd rfl hne
  | command rest w i hnext hpend hdecode hexec =>
    obtain ⟨a, rfl⟩ := exec_modulus_changed hexec hne
    exact .inr ⟨w, a, hpend, hdecode, hnext.schedule⟩
  | read addr n rest hsched => exact absurd (hostRead_frame _ addr n).2.1 hne
  | write addr n v rest hsched => exact absurd (hostWrite_frame _ addr n v).2 hne
  | reset rest hsched => exact .inl ⟨rest, hsched⟩

/-- A step that changes a scalar is a reset, an idle write of SCALAR or an executed command. -/
theorem step_scalars_changed {s t : State} (ht : step s = .next t) (hne : ¬KeepsScalars s t) :
    (∃ rest, s.schedule = .reset :: rest) ∨
      (∃ v rest, s.schedule = .write 0x000C#16 4 v :: rest ∧ s.busy = false) ∨
      ∃ rest w i, s.pend = some w ∧ decode w = .ok i ∧ EngineNext s rest ∧ exec i { s with schedule := rest } = .next t := by
  cases stepForm_of_step ht with
  | idle rest hnext hpend => exact absurd ⟨rfl, rfl, rfl⟩ hne
  | decodeError rest w e hnext hpend hdecode => exact absurd ⟨rfl, rfl, rfl⟩ hne
  | command rest w i hnext hpend hdecode hexec => exact .inr (.inr ⟨rest, w, i, hpend, hdecode, hnext, hexec⟩)
  | read addr n rest hsched =>
    obtain ⟨-, -, hkeeps⟩ := hostRead_frame { s with schedule := rest } addr n
    exact absurd hkeeps hne
  | write addr n v rest hsched =>
    rcases hostWrite_scalars { s with schedule := rest } addr n v with hkeeps | ⟨hbusy, rfl, rfl⟩
    · exact absurd hkeeps hne
    · exact .inr (.inl ⟨v, rest, hsched, hbusy⟩)
  | reset rest hsched => exact .inl ⟨rest, hsched⟩

/-- Settles O40: of the commands, only MAC changes CARRY. -/
theorem carryChangesOnlyByMacOrHost : Obligations.CarryChangesOnlyByMacOrHost := by
  intro s t ht hne
  rcases step_scalars_changed ht fun ⟨_, hcarry, _⟩ => hne hcarry with
    hreset | hwrite | ⟨rest, w, i, hpend, hdecode, hnext, hexec⟩
  · exact .inl hreset
  · exact .inr (.inl hwrite)
  · obtain ⟨a, b, c, rfl⟩ := exec_carry_changed hexec hne
    exact .inr (.inr ⟨w, a, b, c, hpend, hdecode, hnext.schedule⟩)

/-- Settles O41: of the commands, only SDIV changes REM. -/
theorem remChangesOnlyBySdivOrHost : Obligations.RemChangesOnlyBySdivOrHost := by
  intro s t ht hne
  rcases step_scalars_changed ht fun ⟨_, _, hrem⟩ => hne hrem with
    hreset | hwrite | ⟨rest, w, i, hpend, hdecode, hnext, hexec⟩
  · exact .inl hreset
  · exact .inr (.inl hwrite)
  · obtain ⟨lo, dv, rfl⟩ := exec_rem_changed hexec hne
    exact .inr (.inr ⟨w, lo, dv, hpend, hdecode, hnext.schedule⟩)

/-! ## Which steps change HERR -/

/-- A step leaves HERR as it is, or is a reset, a refused access, or an idle write of STATUS (R49). -/
theorem step_herr {s t : State} (ht : step s = .next t) :
    t.herr = s.herr ∨ (∃ rest, s.schedule = .reset :: rest ∧ t.herr = false) ∨
      (∃ addr n rest, s.schedule = .read addr n :: rest ∧ .next t = readRefused s rest) ∨
      (∃ addr n v rest, s.schedule = .write addr n v :: rest ∧ .next t = writeRefused s rest) ∨
      ∃ v rest, s.schedule = .write 0x0004#16 4 v :: rest ∧ s.busy = false ∧ t.herr = (s.herr && !v.getLsbD 3) := by
  cases stepForm_of_step ht with
  | idle rest hnext hpend => exact .inl rfl
  | decodeError rest w e hnext hpend hdecode => exact .inl rfl
  | command rest w i hnext hpend hdecode hexec => exact .inl ((exec_herr hexec).trans rfl)
  | read addr n rest hsched =>
    rcases hostRead_cases { s with schedule := rest } addr n with hr | ⟨v, hr⟩
    · exact .inr (.inr (.inl ⟨addr, n, rest, hsched, by rw [hr]; rfl⟩))
    · exact .inl (by rw [hr]; rfl)
  | write addr n v rest hsched =>
    rcases hostWrite_herr { s with schedule := rest } addr n v with hw | hw | ⟨hbusy, rfl, rfl, hw⟩
    · exact .inl hw
    · exact .inr (.inr (.inr (.inl ⟨addr, n, v, rest, hsched, by rw [hw]; rfl⟩)))
    · exact .inr (.inr (.inr (.inr ⟨v, rest, hsched, hbusy, by rw [hw]; rfl⟩)))
  | reset rest hsched => exact .inr (.inl ⟨rest, hsched, rfl⟩)

/-- Settles O54: a refused access leaves HERR set, and a write of STATUS clears it by a 1 in bit 3 only. -/
theorem herrIsSticky : Obligations.HerrIsSticky := by
  intro s t ht hset hclear
  rcases step_herr ht with
    hkept | ⟨rest, hsched, -⟩ | ⟨addr, n, rest, -, hr⟩ | ⟨addr, n, v, rest, -, hw⟩ | ⟨v, rest, hsched, hbusy, hw⟩
  · simp [hkept, hset] at hclear
  · exact .inl ⟨rest, hsched⟩
  · cases hr; cases hclear
  · cases hw; cases hclear
  · exact .inr ⟨v, rest, hsched, by simpa [hset, hclear] using hw, hbusy⟩

/-- Settles O55: reset and a write of STATUS can only clear HERR. -/
theorem onlyRefusedAccessesSetHerr : Obligations.OnlyRefusedAccessesSetHerr := by
  intro s t ht hclear hset
  rcases step_herr ht with hkept | ⟨rest, -, hreset⟩ | hr | hw | ⟨v, rest, -, -, hstatus⟩
  · simp [hkept, hclear] at hset
  · simp [hreset] at hset
  · exact .inl hr
  · exact .inr hw
  · simp [hstatus, hclear] at hset

/-! ## The values after reset -/

/-- Settles O1: no bit of STATUS or SCALAR is set, and CONFIG is read by its fields. -/
theorem resetStateHasTheResetValues : Obligations.ResetStateHasTheResetValues := by
  intro cap draw sch rd s
  have hstatus : s.statusWord = 0#32 := by
    simp [s, State.atReset, State.statusWord, State.busy, State.mvalid, ErrCode.code, placeAt]
  have hscalar : s.scalarWord = 0#32 := by
    simp [s, State.atReset, State.scalarWord, placeAt]
  exact ⟨State.atReset_len cap draw sch rd, rfl, rfl, rfl, rfl, rfl, hstatus, hscalar, rfl, rfl, configWord_cap s,
    configWord_constants s⟩

end Sys2Proof.Machine
end

section
/-! PROOFS. Scope: the host port, address by address: what a read returns, what a write changes, and which accesses are refused
(R36 to R45, R71 to R85, R88). -/

namespace Sys2Proof.Machine

/-! ## The address map, forwards (R71) -/

theorem portItem_at_status (cap : Nat) : portItem cap 0x0004#16 4 = some .status := rfl

theorem portItem_at_cmd (cap : Nat) : portItem cap 0x0008#16 4 = some .cmd := rfl

theorem portItem_at_scalar (cap : Nat) : portItem cap 0x000C#16 4 = some .scalar := rfl

theorem portItem_at_mlen (cap : Nat) : portItem cap 0x0010#16 4 = some .mlen := rfl

theorem portItem_lenAddr (cap : Nat) (i : BufId) : portItem cap (lenAddr i) 4 = some (.len i) := by
  fin_cases i <;> rfl

theorem digitAddr_toNat (i : BufId) {j : Nat} (hj : j < 0x1000) : (digitAddr i j).toNat = 0x1000 + 0x1000 * i.val + j := by
  have hi := i.isLt
  simp only [digitAddr, BitVec.toNat_ofNat]
  omega

theorem modDigitAddr_toNat {j : Nat} (hj : j < 0x1000) : (modDigitAddr j).toNat = 0x9000 + j := by
  simp only [modDigitAddr, BitVec.toNat_ofNat]
  omega

/-- An address of the digit region reaches what its window and its offset in the window say (R74, R76). -/
theorem portItem_digitRegion {cap : Nat} {addr : PortAddr} (hlo : 0x1000 ≤ addr.toNat) (hhi : addr.toNat < 0xA000) :
    portItem cap addr 1 = digitItem cap addr.toNat := by
  simp [portItem, hlo.not_gt, hhi]

theorem portItem_digitAddr {cap : Nat} (i : BufId) {j : Nat} (hcap : cap ≤ 0x1000) (hj : j < cap) :
    portItem cap (digitAddr i j) 1 = some (.digit i j) := by
  have haddr := digitAddr_toNat i (hj.trans_le hcap)
  have hi := i.isLt
  have hwindow : (digitAddr i j).toNat / 0x1000 - 1 = i.val := by omega
  have hoffset : (digitAddr i j).toNat % 0x1000 = j := by omega
  rw [portItem_digitRegion (by omega) (by omega), digitItem, if_pos (by omega), if_pos (by omega), hwindow, hoffset,
    Fin.ofNat_val_eq_self]

theorem portItem_modDigitAddr {cap j : Nat} (hcap : cap ≤ 0x1000) (hj : j < cap) :
    portItem cap (modDigitAddr j) 1 = some (.modDigit j) := by
  have haddr := modDigitAddr_toNat (hj.trans_le hcap)
  have hoffset : (modDigitAddr j).toNat % 0x1000 = j := by omega
  rw [portItem_digitRegion (by omega) (by omega), digitItem, if_pos (by omega), if_neg (by omega), hoffset]

/-! ## The addresses and accesses that reach nothing -/

theorem registerItem_reserved {a : Nat} (h : 0x0014 ≤ a ∧ a < 0x0040 ∨ 0x0060 ≤ a) : registerItem a = none := by
  unfold registerItem
  repeat rw [if_neg (by omega)]

/-- A reserved address reaches nothing (R75, R77). -/
theorem portItem_reserved {cap : Nat} {addr : PortAddr} (n : Nat) (h : ReservedAddr cap addr) :
    portItem cap addr n = none := by
  unfold portItem
  rcases h with ⟨hlo, hhi⟩ | ⟨hlo, hhi⟩ | ⟨hlo, hhi, hcap⟩ | hlo
  · rw [if_pos (by omega), registerItem_reserved (.inl ⟨hlo, hhi⟩), ite_self]
  · rw [if_pos hhi, registerItem_reserved (.inr hlo), ite_self]
  · rw [if_neg (by omega), if_pos hhi, digitItem, if_neg hcap.not_gt, ite_self]
  · rw [if_neg (by omega), if_neg (by omega)]

/-- An access of the wrong width or alignment reaches nothing (R72, R73, R78). -/
theorem portItem_wrongShape {cap : Nat} {addr : PortAddr} {n : Nat} (h : WrongShape addr n) :
    portItem cap addr n = none := by
  unfold portItem
  rcases h with ⟨hreg, hshape⟩ | ⟨hlo, hhi, hwidth⟩
  · rw [if_pos hreg, if_neg hshape]
  · rw [if_neg (by omega), if_pos hhi, if_neg hwidth]

/-- What the busy port serves stands at two addresses, 4 bytes wide (R79). -/
theorem portItem_readableWhileBusy {cap : Nat} {addr : PortAddr} {n : Nat} {it : PortItem}
    (hp : portItem cap addr n = some it) (hit : readableWhileBusy it = true) :
    n = 4 ∧ (addr = 0x0000#16 ∨ addr = 0x0004#16) := by
  cases it with
  | config =>
    obtain ⟨hn, hreg⟩ := portItem_of_register hp nofun nofun
    exact ⟨hn, .inl (BitVec.eq_of_toNat_eq (by simpa using registerItem_cases hreg))⟩
  | status =>
    obtain ⟨haddr, hn⟩ := portItem_status hp
    exact ⟨hn, .inr haddr⟩
  | _ => cases hit

/-! ## What a length write and a digit write leave of their buffer -/

@[simp] theorem State.setLen_len (s : State) (i : BufId) (n : Nat) : (s.setLen i n).len i = n := by
  simp [State.len, State.setLen_buf]

/-- A length write changes no digit (R44). -/
@[simp] theorem State.setLen_digits (s : State) (i : BufId) (n : Nat) :
    ((s.setLen i n).buf i).digits = (s.buf i).digits := by
  simp [State.setLen_buf]

/-- A digit write changes no length (R74). -/
@[simp] theorem State.setDigit_len (s : State) (i : BufId) (j : Nat) (d : Byte) : (s.setDigit i j d).len i = s.len i := by
  simp [State.len, State.setDigit_buf]

/-! ## One step of the host -/

/-- What an item reads does not depend on the events to come. -/
theorem readItem_withSchedule (s : State) (rest : List Event) (it : PortItem) :
    readItem { s with schedule := rest } it = readItem s it := by
  cases it <;> rfl

/-- The items of R80 drop every write. -/
theorem writeItem_readOnly (s : State) (v : Word) {it : PortItem} (h : it = .config ∨ it = .mlen ∨ ∃ j, it = .modDigit j) :
    writeItem s v it = s.refuseAccess := by
  obtain rfl | rfl | ⟨j, rfl⟩ := h <;> rfl

section
variable {s : State} {rest : List Event} {addr : PortAddr} {n : Nat} {it : PortItem} {x : Word}

section
variable (hsched : s.schedule = .read addr n :: rest)
include hsched

theorem step_read : step s = .next (hostRead { s with schedule := rest } addr n) := by
  simp only [step, hsched, takeEvent]

/-- A read of an item that may be read now returns it and has no other effect (R88). -/
theorem step_read_item (hp : portItem s.cap addr n = some it) (hserved : s.busy = false ∨ readableWhileBusy it = true) :
    step s = readReturns s rest (readItem s it) := by
  have hcond : (s.busy && !readableWhileBusy it) = false := by
    rcases hserved with hidle | hit
    · rw [hidle, Bool.false_and]
    · rw [hit, Bool.not_true, Bool.and_false]
  have hbusy : State.busy { s with schedule := rest } = s.busy := rfl
  rw [step_read hsched, hostRead, hp]
  simp only [hbusy, hcond, readItem_withSchedule]
  rfl

/-- A read that reaches nothing is refused (R77, R78). -/
theorem step_read_unmapped (hp : portItem s.cap addr n = none) : step s = readRefused s rest := by
  rw [step_read hsched, hostRead, hp]
  rfl

/-- While busy, a read of anything but CONFIG and STATUS is refused (R79). -/
theorem step_read_busy (hbusy : s.busy = true) (hp : portItem s.cap addr n = some it)
    (hit : readableWhileBusy it = false) : step s = readRefused s rest := by
  have hcond : (State.busy { s with schedule := rest } && !readableWhileBusy it) = true := by
    rw [hit]; exact (Bool.and_true _).trans hbusy
  rw [step_read hsched, hostRead, hp]
  simp only [hcond]
  rfl

end

section
variable (hsched : s.schedule = .write addr n x :: rest)
include hsched

theorem step_write : step s = .next (hostWrite { s with schedule := rest } addr n x) := by
  simp only [step, hsched, takeEvent]

/-- An idle write of an item has the item's effect (R80 to R84). -/
theorem step_write_item (hidle : s.busy = false) (hp : portItem s.cap addr n = some it) :
    step s = .next (writeItem { s with schedule := rest } x it) := by
  have hbusy : State.busy { s with schedule := rest } = false := hidle
  rw [step_write hsched, hostWrite, hbusy, hp]
  rfl

/-- Every write is refused while busy (R79). -/
theorem step_write_busy (hbusy : s.busy = true) : step s = writeRefused s rest := by
  have hbusy' : State.busy { s with schedule := rest } = true := hbusy
  rw [step_write hsched, hostWrite, hbusy']
  rfl

/-- A write that reaches nothing is refused, busy or idle (R77, R78). -/
theorem step_write_unmapped (hp : portItem s.cap addr n = none) : step s = writeRefused s rest := by
  rw [step_write hsched, hostWrite, hp]
  exact congrArg _ (ite_self _)

/-- A write to a read-only item is refused, busy or idle (R79, R80). -/
theorem step_write_readOnly (hp : portItem s.cap addr n = some it)
    (hit : it = .config ∨ it = .mlen ∨ ∃ j, it = .modDigit j) : step s = writeRefused s rest := by
  cases hbusy : s.busy with
  | true => exact step_write_busy hsched hbusy
  | false =>
    rw [step_write_item hsched hbusy hp, writeItem_readOnly _ _ hit]
    rfl

end

end

/-! ## The fields of STATUS and SCALAR -/

/-- A field's bits stand from its lowest bit up (R15). -/
theorem getElem_placeAt {n : Nat} (v : BitVec n) (lo k : Nat) (hk : k < 32) :
    (placeAt v lo)[k] = (decide (lo ≤ k) && v.getLsbD (k - lo)) := by
  by_cases hlo : lo ≤ k <;> simp [placeAt, hlo]

/-- The bits 4:0 of STATUS: BUSY, DONE, ERR, HERR and MVALID (R37). -/
theorem statusWord_flags (s : State) :
    s.statusWord.getLsbD 0 = s.busy ∧ s.statusWord.getLsbD 1 = s.done ∧ s.statusWord.getLsbD 2 = s.err ∧
      s.statusWord.getLsbD 3 = s.herr ∧ s.statusWord.getLsbD 4 = s.modulus.valid := by
  simp [State.statusWord, State.mvalid, getElem_placeAt]

/-- STATUS.ERRCODE, bits 11:8 (R37). -/
theorem statusWord_errcode (s : State) : s.statusWord.extractLsb' 8 4 = s.errcode.code := by
  simp [State.statusWord, BitVec.extractLsb'_or, extractLsb'_placeAt, extractLsb'_placeAt_above]

/-- The reserved bits 7:5 and 31:12 of STATUS read 0 (R37). -/
theorem statusWord_reserved (s : State) :
    s.statusWord.extractLsb' 5 3 = 0#3 ∧ s.statusWord.extractLsb' 12 20 = 0#20 := by
  simp [State.statusWord, BitVec.extractLsb'_or, extractLsb'_placeAt_above, extractLsb'_placeAt_below]

/-- The four bytes of SCALAR: RES, CARRY, REM and a reserved one (R40). -/
theorem scalarWord_bytes (s : State) :
    s.scalarWord.extractLsb' 0 8 = s.res ∧ s.scalarWord.extractLsb' 8 8 = s.carry ∧
      s.scalarWord.extractLsb' 16 8 = s.rem ∧ s.scalarWord.extractLsb' 24 8 = 0#8 := by
  simp [State.scalarWord, BitVec.extractLsb'_or, extractLsb'_placeAt, extractLsb'_placeAt_above, extractLsb'_placeAt_below]

/-- A bit that a 1 clears, in the two ways it is written (R82). -/
theorem and_not_eq_ite (b clear : Bool) : (b && !clear) = if clear then false else b := by
  cases clear <;> simp

/-- A length fits the 32 bits of its register. -/
theorem Inv.length_toNat {s : State} (h : Inv s) {len : Nat} (hlen : len ≤ s.cap) : (BitVec.ofNat 32 len).toNat = len := by
  obtain ⟨-, hmax⟩ := h.cap_range
  rw [BitVec.toNat_ofNat, Nat.mod_eq_of_lt ((hlen.trans hmax).trans_lt (by decide))]

/-! ## The registers -/

/-- Settles O43: the fields of the status word, and the write-one-to-clear rule. -/
theorem statusReadsItsFieldsAndClearsByOnes : Obligations.StatusReadsItsFieldsAndClearsByOnes := by
  refine fun s rest => ⟨fun hsched => ?_, fun x hidle hsched => ?_⟩
  · obtain ⟨hbusy, hdone, herr, hherr, hvalid⟩ := statusWord_flags s
    obtain ⟨hlow, hhigh⟩ := statusWord_reserved s
    exact ⟨s.statusWord, step_read_item hsched (portItem_at_status s.cap) (.inr rfl), hbusy, hdone, herr, hherr, hvalid,
      hlow, statusWord_errcode s, hhigh⟩
  · rw [step_write_item hsched hidle (portItem_at_status s.cap)]
    simp only [writeItem, State.clearStatus, and_not_eq_ite]

/-- Settles O45: every length fits its register, and the bound CAP decides whether a write is taken. -/
theorem lengthRegisters : Obligations.LengthRegisters := by
  refine fun s rest i h hidle => ⟨fun hsched => ?_, fun hsched => ?_, fun x hsched => ?_⟩
  · exact ⟨_, step_read_item hsched (portItem_lenAddr s.cap i) (.inl hidle), h.length_toNat (h.buf_len i)⟩
  · exact ⟨_, step_read_item hsched (portItem_at_mlen s.cap) (.inl hidle), h.length_toNat h.mod_len⟩
  · have hstep := step_write_item hsched hidle (portItem_lenAddr s.cap i)
    refine ⟨fun hfits => ?_, fun hlong => ?_⟩
    · have hset : step s = .next (State.setLen { s with schedule := rest } i x.toNat) :=
        hstep.trans (congrArg _ (if_pos hfits))
      refine ⟨_, hset, ?_, ?_, fun k hk => ?_, rfl, rfl, ⟨rfl, rfl, rfl⟩, rfl, rfl, rfl⟩
      · exact State.setLen_len _ i _
      · exact State.setLen_digits _ i _
      · exact State.setBuf_buf_other _ i k _ hk
    · exact hstep.trans (congrArg _ (if_neg hlong.not_ge))

/-- Settles O44: the bytes of the scalar word, and the three a write takes. -/
theorem scalarReadsAndWritesItsThreeDigits : Obligations.ScalarReadsAndWritesItsThreeDigits := by
  refine fun s rest hidle => ⟨fun hsched => ?_, fun x hsched => ?_⟩
  · exact ⟨s.scalarWord, step_read_item hsched (portItem_at_scalar s.cap) (.inl hidle), scalarWord_bytes s⟩
  · exact step_write_item hsched hidle (portItem_at_scalar s.cap)

/-- Settles O46: the accepted word is what the engine's turn finds pending. -/
theorem cmdAcceptsACommand : Obligations.CmdAcceptsACommand := by
  refine fun s rest hidle => ⟨fun w hsched => ?_, fun hsched => ?_⟩
  · refine ⟨_, step_write_item hsched hidle (portItem_at_cmd s.cap), rfl, fun later i hrest hdecode => ?_⟩
    subst hrest
    exact engineStep_of_command (s := { s.accept w with schedule := later }) rfl hdecode
  · exact step_read_item hsched (portItem_at_cmd s.cap) (.inl hidle)

/-! ## The digits -/

/-- Settles O47: the digit written is the only one that changes. -/
theorem bufferDigitAccess : Obligations.BufferDigitAccess := by
  intro s rest i j h hidle hj
  obtain ⟨-, hmax⟩ := h.cap_range
  have hp := portItem_digitAddr i hmax hj
  refine ⟨fun hsched => step_read_item hsched hp (.inl hidle), fun x hsched => ?_⟩
  have hdigit (k : Nat) := setDigit_getD { s with schedule := rest } i j k (x.extractLsb' 0 8)
    (hj.trans_eq (h.buf_digits i).symm)
  refine ⟨_, step_write_item hsched hidle hp, ?_, fun k hk => ?_, ?_, fun k hk => ?_, rfl, ⟨rfl, rfl, rfl⟩, rfl, rfl, rfl,
    rfl⟩
  · exact (hdigit j).trans (if_pos rfl)
  · exact (hdigit k).trans (if_neg hk)
  · exact State.setDigit_len _ i j _
  · exact State.setBuf_buf_other _ i k _ hk

/-- Settles O48: MOD's window is read like a buffer's, and is read-only. -/
theorem modulusDigitAccess : Obligations.ModulusDigitAccess := by
  intro s rest j h hj
  obtain ⟨-, hmax⟩ := h.cap_range
  have hp := portItem_modDigitAddr hmax hj
  exact ⟨fun hidle hsched => step_read_item hsched hp (.inl hidle),
    fun x hsched => step_write_readOnly hsched hp (.inr (.inr ⟨j, rfl⟩))⟩

/-! ## What the port refuses -/

/-- Settles O49: a read elsewhere reaches nothing or an item that is not served while busy. -/
theorem busyPortServesOnlyConfigAndStatus : Obligations.BusyPortServesOnlyConfigAndStatus := by
  refine fun s rest hbusy => ⟨fun hsched => ?_, fun hsched => ?_, fun addr n hsched helse => ?_, fun addr n x hsched => ?_⟩
  · exact step_read_item hsched (portItem_config s.cap) (.inr rfl)
  · exact step_read_item hsched (portItem_at_status s.cap) (.inr rfl)
  · cases hp : portItem s.cap addr n with
    | none => exact step_read_unmapped hsched hp
    | some it =>
      cases hit : readableWhileBusy it with
      | false => exact step_read_busy hsched hbusy hp hit
      | true => exact absurd (portItem_readableWhileBusy hp hit) helse
  · exact step_write_busy hsched hbusy

/-- Settles O50: a reserved address reaches nothing. -/
theorem reservedAddressIsRefused : Obligations.ReservedAddressIsRefused :=
  fun _ _ _ n hreserved => ⟨fun hsched => step_read_unmapped hsched (portItem_reserved n hreserved),
    fun _ hsched => step_write_unmapped hsched (portItem_reserved n hreserved)⟩

/-- Settles O51: an access of the wrong shape reaches nothing. -/
theorem wrongWidthOrAlignmentIsRefused : Obligations.WrongWidthOrAlignmentIsRefused :=
  fun _ _ _ _ hshape => ⟨fun hsched => step_read_unmapped hsched (portItem_wrongShape hshape),
    fun _ hsched => step_write_unmapped hsched (portItem_wrongShape hshape)⟩

/-- Settles O52: the three items are read-only, and a write of STATUS can only clear HERR. -/
theorem readOnlyItemsRefuseWrites : Obligations.ReadOnlyItemsRefuseWrites := by
  refine fun s rest x j hcap hj => ⟨fun hsched => ?_, fun hsched => ?_, fun hsched => ?_, fun hsched hidle hclear => ?_⟩
  · exact step_write_readOnly hsched (portItem_config s.cap) (.inl rfl)
  · exact step_write_readOnly hsched (portItem_at_mlen s.cap) (.inr (.inl rfl))
  · exact step_write_readOnly hsched (portItem_modDigitAddr hcap hj) (.inr (.inr ⟨j, rfl⟩))
  · exact ⟨_, step_write_item hsched hidle (portItem_at_status s.cap), by simp [writeItem, hclear]⟩

/-- Settles O53: a read at most sets HERR, and then it is refused. -/
theorem readsHaveNoOtherEffect : Obligations.ReadsHaveNoOtherEffect := by
  intro s rest addr n hsched
  rcases hostRead_cases { s with schedule := rest } addr n with hread | ⟨v, hread⟩
  · exact .inl ((step_read hsched).trans (congrArg _ hread))
  · exact .inr ⟨v, (step_read hsched).trans (congrArg _ hread)⟩

end Sys2Proof.Machine
end

section
/-! PROOFS. Scope: the decoder and the encoder are inverse to each other (R110 to R129), and the assembler's words (R126,
R127). -/

namespace Sys2Proof

open Machine

/-! ## Fields and masks (R15) -/

/-- A register number or a shift count is the number in the three bits of its field (R120, R121). -/
theorem ofNat_fin_ofNat_toNat (x : BitVec 3) : BitVec.ofNat 3 (Fin.ofNat 8 x.toNat).val = x := by
  apply BitVec.eq_of_toNat_eq
  simp [Nat.mod_eq_of_lt (show x.toNat < 8 from x.isLt)]

/-- A field of a word, put back in its place, is the word with every other bit cleared. -/
theorem placeAt_extractLsb' (w : Word) (lo n : Nat) :
    placeAt (w.extractLsb' lo n) lo = w &&& placeAt (BitVec.allOnes n) lo := by
  ext k hk
  by_cases hlo : lo ≤ k
  · simp [getElem_placeAt, hk, hlo, Bool.and_comm]
  · simp [getElem_placeAt, hlo]

/-- A mask that misses a field's place misses the field, whatever its value. -/
theorem and_placeAt_eq_zero {n lo : Nat} {m : Word} (v : BitVec n) (h : m &&& placeAt (BitVec.allOnes n) lo = 0#32) :
    m &&& placeAt v lo = 0#32 := by
  have hv : placeAt v lo = placeAt (BitVec.allOnes n) lo &&& placeAt v lo := by
    simp [placeAt, ← BitVec.shiftLeft_and_distrib, ← BitVec.setWidth_and]
  rw [hv, ← BitVec.and_assoc, h, BitVec.zero_and]

/-- A word with no bit under a mask is all outside it. -/
theorem and_not_eq_self {w m : Word} (h : w &&& m = 0#32) : w &&& ~~~m = w := by
  calc w &&& ~~~m = w &&& ~~~m ||| w &&& m := by rw [h, BitVec.or_zero]
    _ = w &&& (~~~m ||| m) := BitVec.and_or_distrib_left.symm
    _ = w := by rw [BitVec.or_comm, BitVec.or_not_self, BitVec.and_allOnes]

/-! ## The opcode map (R112) -/

/-- The rows of the opcode map: an assigned opcode, its format, and the command that a word's fields name (R112). -/
def opcodeTable : List (Byte × Format × (Word → Instr)) :=
  [(0x00#8, .n, fun _ => .nop),
   (0x01#8, .d3, fun w => .mac (fieldA w) (fieldB w) (fieldC w)),
   (0x02#8, .d2, fun w => .sdiv (fieldLO w) (fieldDV w)),
   (0x10#8, .r3, fun w => .mul (fieldRD w) (fieldRA w) (fieldRB w)),
   (0x11#8, .sh, fun w => .shl (fieldRD w) (fieldSH w)),
   (0x12#8, .sh, fun w => .shr (fieldRD w) (fieldSH w)),
   (0x13#8, .r2, fun w => .reduce (fieldRD w) (fieldRA w)),
   (0x20#8, .r1, fun w => .setmod (fieldRA w)),
   (0x21#8, .r2, fun w => .modmul (fieldRD w) (fieldRA w)),
   (0x22#8, .r3, fun w => .modexp (fieldRD w) (fieldRA w) (fieldRB w))]

theorem opcodeTable_reservedBits : opcodeTable.map (fun row => (row.1, reservedMask row.2.1)) = reservedBits := rfl

/-- Every row of the opcode map says how the words of its opcode decode (R122, R125). -/
theorem opcodeTable_encodedAs : ∀ row ∈ opcodeTable, EncodedAs row.1 (reservedMask row.2.1) row.2.2 := by
  simp only [opcodeTable, List.forall_mem_cons]
  refine ⟨?_, ?_, ?_, ?_, ?_, ?_, ?_, ?_, ?_, ?_, nofun⟩
  all_goals intro w hopc; simp [decode, hopc, checkReserved]

/-- A word of no assigned opcode is illegal, whatever its other bits (R123). -/
theorem decode_unassigned {w : Word} (h : ∀ e ∈ reservedBits, e.1 ≠ opcodeOf w) : decode w = .error .illegalOpcode := by
  simp only [reservedBits, List.forall_mem_cons, ne_comm (b := opcodeOf w)] at h
  obtain ⟨h00, h01, h02, h10, h11, h12, h13, h20, h21, h22, -⟩ := h
  simp only [decode, h00, h01, h02, h10, h11, h12, h13, h20, h21, h22, if_false]

/-- A word of an assigned opcode is refused where a reserved bit is 1 (R122). -/
theorem decode_reserved {w mask : Word} {opc : Byte} (hrow : (opc, mask) ∈ reservedBits) (hopc : opcodeOf w = opc)
    (hres : w &&& mask ≠ 0#32) : decode w = .error .reservedField := by
  rw [← opcodeTable_reservedBits] at hrow
  obtain ⟨row, hmem, heq⟩ := List.mem_map.mp hrow
  obtain ⟨rfl, rfl⟩ := Prod.mk.inj heq
  rw [opcodeTable_encodedAs row hmem w hopc, if_neg hres]

/-- A word of an assigned opcode with every reserved bit 0 decodes to the command of its fields (R125). -/
theorem decode_of_row {opc : Byte} {fmt : Format} {f : Word → Instr} {w : Word} (hrow : (opc, fmt, f) ∈ opcodeTable)
    (hopc : opcodeOf w = opc) (hres : w &&& reservedMask fmt = 0#32) : decode w = .ok (f w) := by
  rw [opcodeTable_encodedAs _ hrow w hopc, if_pos hres]

/-- A word that decodes matches a row of the opcode map, and its command is that row's (R122, R123). -/
theorem row_of_decode {w : Word} {i : Instr} (h : decode w = .ok i) :
    ∃ row ∈ opcodeTable, opcodeOf w = row.1 ∧ w &&& reservedMask row.2.1 = 0#32 ∧ row.2.2 w = i := by
  by_cases hex : ∃ row ∈ opcodeTable, opcodeOf w = row.1
  · obtain ⟨row, hmem, hopc⟩ := hex
    rw [opcodeTable_encodedAs row hmem w hopc] at h
    split at h
    · next hres => exact ⟨row, hmem, hopc, hres, Except.ok.inj h⟩
    · cases h
  · have hun : ∀ e ∈ reservedBits, e.1 ≠ opcodeOf w := by
      rw [← opcodeTable_reservedBits]
      rintro _ he heq
      obtain ⟨row, hmem, rfl⟩ := List.mem_map.mp he
      exact hex ⟨row, hmem, heq.symm⟩
    cases (decode_unassigned hun).symm.trans h

/-! ## A word is the encoding of its fields (R113 to R119) -/

section
variable {opc : Byte} {w : Word} (hopc : opcodeOf w = opc)
include hopc

theorem encodeN_fields (hres : w &&& reservedMask .n = 0#32) : encodeN opc = w := by
  simp only [encodeN, putOPC, ← hopc, opcodeOf, placeAt_extractLsb']
  exact and_not_eq_self hres

theorem encodeD3_fields : encodeD3 opc (fieldA w) (fieldB w) (fieldC w) = w := by
  simp only [encodeD3, putOPC, ← hopc, opcodeOf, fieldA, fieldB, fieldC, placeAt_extractLsb', ← BitVec.and_or_distrib_left]
  exact BitVec.and_allOnes

theorem encodeD2_fields (hres : w &&& reservedMask .d2 = 0#32) : encodeD2 opc (fieldDV w) (fieldLO w) = w := by
  simp only [encodeD2, putOPC, ← hopc, opcodeOf, fieldDV, fieldLO, placeAt_extractLsb', ← BitVec.and_or_distrib_left]
  exact and_not_eq_self hres

theorem encodeR3_fields (hres : w &&& reservedMask .r3 = 0#32) :
    encodeR3 opc (fieldRD w) (fieldRA w) (fieldRB w) = w := by
  simp only [encodeR3, putOPC, putRD, putRA, putRB, ← hopc, opcodeOf, fieldRD, fieldRA, fieldRB, ofNat_fin_ofNat_toNat,
    placeAt_extractLsb', ← BitVec.and_or_distrib_left]
  exact and_not_eq_self hres

theorem encodeR2_fields (hres : w &&& reservedMask .r2 = 0#32) : encodeR2 opc (fieldRD w) (fieldRA w) = w := by
  simp only [encodeR2, putOPC, putRD, putRA, ← hopc, opcodeOf, fieldRD, fieldRA, ofNat_fin_ofNat_toNat,
    placeAt_extractLsb', ← BitVec.and_or_distrib_left]
  exact and_not_eq_self hres

theorem encodeR1_fields (hres : w &&& reservedMask .r1 = 0#32) : encodeR1 opc (fieldRA w) = w := by
  simp only [encodeR1, putOPC, putRA, ← hopc, opcodeOf, fieldRA, ofNat_fin_ofNat_toNat, placeAt_extractLsb',
    ← BitVec.and_or_distrib_left]
  exact and_not_eq_self hres

theorem encodeSH_fields (hres : w &&& reservedMask .sh = 0#32) : encodeSH opc (fieldRD w) (fieldSH w) = w := by
  simp only [encodeSH, putOPC, putRD, ← hopc, opcodeOf, fieldRD, fieldSH, ofNat_fin_ofNat_toNat, placeAt_extractLsb',
    ← BitVec.and_or_distrib_left]
  exact and_not_eq_self hres

end

/-- The command of every row of the opcode map encodes to the word its fields were read from. -/
theorem encode_of_row : ∀ row ∈ opcodeTable, ∀ w : Word, opcodeOf w = row.1 → w &&& reservedMask row.2.1 = 0#32 →
    encode (row.2.2 w) = w := by
  simp only [opcodeTable, List.forall_mem_cons]
  exact ⟨fun _ => encodeN_fields, fun _ hopc _ => encodeD3_fields hopc, fun _ => encodeD2_fields, fun _ => encodeR3_fields,
    fun _ => encodeSH_fields, fun _ => encodeSH_fields, fun _ => encodeR2_fields, fun _ => encodeR1_fields,
    fun _ => encodeR2_fields, fun _ => encodeR3_fields, nofun⟩

/-- Settles O8: every bit of a word that decodes is in one of its fields or under the reserved mask. -/
theorem encodeOfDecode : Obligations.EncodeOfDecode := by
  intro w i h
  obtain ⟨row, hmem, hopc, hres, rfl⟩ := row_of_decode h
  exact encode_of_row row hmem w hopc hres

/-! ## Every encoding decodes (R113 to R119) -/

section
variable {opc : Byte}

theorem decode_encodeN {i : Instr} (hrow : (opc, .n, fun _ => i) ∈ opcodeTable) : decode (encodeN opc) = .ok i := by
  have hopc : opcodeOf (encodeN opc) = opc := extractLsb'_placeAt opc 24 (by decide)
  have hres : encodeN opc &&& reservedMask .n = 0#32 := by
    rw [BitVec.and_comm]
    exact and_placeAt_eq_zero opc (by decide)
  rw [decode_of_row hrow hopc hres]

theorem decode_encodeD3 {f : Byte → Byte → Byte → Instr}
    (hrow : (opc, .d3, fun w => f (fieldA w) (fieldB w) (fieldC w)) ∈ opcodeTable) (a b c : Byte) :
    decode (encodeD3 opc a b c) = .ok (f a b c) := by
  have hopc : opcodeOf (encodeD3 opc a b c) = opc := by
    simp [encodeD3, putOPC, opcodeOf, BitVec.extractLsb'_or, extractLsb'_placeAt, extractLsb'_placeAt_above]
  rw [decode_of_row hrow hopc BitVec.and_zero]
  simp [encodeD3, putOPC, fieldA, fieldB, fieldC, BitVec.extractLsb'_or, extractLsb'_placeAt, extractLsb'_placeAt_above,
    extractLsb'_placeAt_below]

theorem decode_encodeD2 {f : Byte → Byte → Instr}
    (hrow : (opc, .d2, fun w => f (fieldLO w) (fieldDV w)) ∈ opcodeTable) (lo dv : Byte) :
    decode (encodeD2 opc dv lo) = .ok (f lo dv) := by
  have hopc : opcodeOf (encodeD2 opc dv lo) = opc := by
    simp [encodeD2, putOPC, opcodeOf, BitVec.extractLsb'_or, extractLsb'_placeAt, extractLsb'_placeAt_above]
  have hres : encodeD2 opc dv lo &&& reservedMask .d2 = 0#32 := by
    rw [BitVec.and_comm]
    simp (disch := decide) only [encodeD2, putOPC, BitVec.and_or_distrib_left, and_placeAt_eq_zero, BitVec.or_self]
  rw [decode_of_row hrow hopc hres]
  simp [encodeD2, putOPC, fieldLO, fieldDV, BitVec.extractLsb'_or, extractLsb'_placeAt, extractLsb'_placeAt_above,
    extractLsb'_placeAt_below]

theorem decode_encodeR3 {f : BufId → BufId → BufId → Instr}
    (hrow : (opc, .r3, fun w => f (fieldRD w) (fieldRA w) (fieldRB w)) ∈ opcodeTable) (d a b : BufId) :
    decode (encodeR3 opc d a b) = .ok (f d a b) := by
  have hopc : opcodeOf (encodeR3 opc d a b) = opc := by
    simp [encodeR3, putOPC, putRD, putRA, putRB, opcodeOf, BitVec.extractLsb'_or, extractLsb'_placeAt,
      extractLsb'_placeAt_above]
  have hres : encodeR3 opc d a b &&& reservedMask .r3 = 0#32 := by
    rw [BitVec.and_comm]
    simp (disch := decide) only [encodeR3, putOPC, putRD, putRA, putRB, BitVec.and_or_distrib_left, and_placeAt_eq_zero,
      BitVec.or_self]
  rw [decode_of_row hrow hopc hres]
  simp [encodeR3, putOPC, putRD, putRA, putRB, fieldRD, fieldRA, fieldRB, BitVec.extractLsb'_or, extractLsb'_placeAt,
    extractLsb'_placeAt_above, extractLsb'_placeAt_below]

theorem decode_encodeR2 {f : BufId → BufId → Instr} (hrow : (opc, .r2, fun w => f (fieldRD w) (fieldRA w)) ∈ opcodeTable)
    (d a : BufId) : decode (encodeR2 opc d a) = .ok (f d a) := by
  have hopc : opcodeOf (encodeR2 opc d a) = opc := by
    simp [encodeR2, putOPC, putRD, putRA, opcodeOf, BitVec.extractLsb'_or, extractLsb'_placeAt, extractLsb'_placeAt_above]
  have hres : encodeR2 opc d a &&& reservedMask .r2 = 0#32 := by
    rw [BitVec.and_comm]
    simp (disch := decide) only [encodeR2, putOPC, putRD, putRA, BitVec.and_or_distrib_left, and_placeAt_eq_zero,
      BitVec.or_self]
  rw [decode_of_row hrow hopc hres]
  simp [encodeR2, putOPC, putRD, putRA, fieldRD, fieldRA, BitVec.extractLsb'_or, extractLsb'_placeAt,
    extractLsb'_placeAt_above, extractLsb'_placeAt_below]

theorem decode_encodeR1 {f : BufId → Instr} (hrow : (opc, .r1, fun w => f (fieldRA w)) ∈ opcodeTable) (a : BufId) :
    decode (encodeR1 opc a) = .ok (f a) := by
  have hopc : opcodeOf (encodeR1 opc a) = opc := by
    simp [encodeR1, putOPC, putRA, opcodeOf, BitVec.extractLsb'_or, extractLsb'_placeAt, extractLsb'_placeAt_above]
  have hres : encodeR1 opc a &&& reservedMask .r1 = 0#32 := by
    rw [BitVec.and_comm]
    simp (disch := decide) only [encodeR1, putOPC, putRA, BitVec.and_or_distrib_left, and_placeAt_eq_zero, BitVec.or_self]
  rw [decode_of_row hrow hopc hres]
  simp [encodeR1, putOPC, putRA, fieldRA, BitVec.extractLsb'_or, extractLsb'_placeAt, extractLsb'_placeAt_below]

theorem decode_encodeSH {f : BufId → ShiftCount → Instr}
    (hrow : (opc, .sh, fun w => f (fieldRD w) (fieldSH w)) ∈ opcodeTable) (d : BufId) (n : ShiftCount) :
    decode (encodeSH opc d n) = .ok (f d n) := by
  have hopc : opcodeOf (encodeSH opc d n) = opc := by
    simp [encodeSH, putOPC, putRD, opcodeOf, BitVec.extractLsb'_or, extractLsb'_placeAt, extractLsb'_placeAt_above]
  have hres : encodeSH opc d n &&& reservedMask .sh = 0#32 := by
    rw [BitVec.and_comm]
    simp (disch := decide) only [encodeSH, putOPC, putRD, BitVec.and_or_distrib_left, and_placeAt_eq_zero, BitVec.or_self]
  rw [decode_of_row hrow hopc hres]
  simp [encodeSH, putOPC, putRD, fieldRD, fieldSH, BitVec.extractLsb'_or, extractLsb'_placeAt, extractLsb'_placeAt_above,
    extractLsb'_placeAt_below]

end

/-- Settles O7: each command has its row of the opcode map, and each format's fields read back. -/
theorem decodeOfEncode : Obligations.DecodeOfEncode := by
  intro i
  cases i with
  | nop => exact decode_encodeN (by simp [opcodeTable])
  | mac a b c => exact decode_encodeD3 (by simp [opcodeTable]) a b c
  | sdiv lo dv => exact decode_encodeD2 (by simp [opcodeTable]) lo dv
  | mul d a b => exact decode_encodeR3 (by simp [opcodeTable]) d a b
  | shl d n => exact decode_encodeSH (by simp [opcodeTable]) d n
  | shr d n => exact decode_encodeSH (by simp [opcodeTable]) d n
  | reduce d a => exact decode_encodeR2 (by simp [opcodeTable]) d a
  | setmod a => exact decode_encodeR1 (by simp [opcodeTable]) a
  | modmul d a => exact decode_encodeR2 (by simp [opcodeTable]) d a
  | modexp d a b => exact decode_encodeR3 (by simp [opcodeTable]) d a b

/-- A worked encoding read in both directions. -/
theorem decode_and_encode {w : Word} {i : Instr} (h : encode i = w) : decode w = .ok i ∧ encode i = w :=
  ⟨h ▸ decodeOfEncode i, h⟩

/-- Settles O9: each command's word is computed, and its decoding is then O7. -/
theorem workedEncodings : Obligations.WorkedEncodings := by
  refine ⟨?_, ?_, ?_, ?_, ?_, ?_, ?_⟩
  all_goals exact decode_and_encode (by decide)

/-! ## The assembler (R126, R127) -/

/-- A well-formed command has the word of its expansion. -/
theorem asmEncode_eq {x : Asm} {w : Word} (h : x.wellFormed = true) (hw : encode x.expand.core = w) : x.encode = some w := by
  simp [Asm.encode, Asm.assemble, h, hw]

theorem asmEncode_of_illFormed {x : Asm} (h : x.wellFormed = false) : x.encode = none := by
  simp [Asm.encode, Asm.assemble, h]

/-- Two spellings of one command with the same operand ranges have the same word. -/
theorem asmEncode_congr {x y : Asm} (hwf : x.wellFormed = y.wellFormed) (hexp : x.expand = y.expand) :
    x.encode = y.encode := by
  simp [Asm.encode, Asm.assemble, hwf, hexp]

/-- A number in range stands in its field as it is, never truncated (R126). -/
theorem placeAt_ofNat {n v : Nat} (lo : Nat) (hn : n ≤ 32) (hv : v < 2 ^ n) :
    placeAt (BitVec.ofNat n v) lo = BitVec.ofNat 32 (v <<< lo) := by
  apply BitVec.eq_of_toNat_eq
  have hv32 : v < 4294967296 := hv.trans_le (Nat.pow_le_pow_right (by decide) hn)
  simp [placeAt, Nat.mod_eq_of_lt hv, Nat.mod_eq_of_lt hv32]

theorem placeAt_byte {v lo : Nat} (hv : v < 256) : placeAt (BitVec.ofNat 8 v) lo = BitVec.ofNat 32 (v <<< lo) :=
  placeAt_ofNat lo (by decide) hv

theorem placeAt_fin {k lo : Nat} (hk : k < 8) :
    placeAt (BitVec.ofNat 3 (Fin.ofNat 8 k).val) lo = BitVec.ofNat 32 (k <<< lo) := by
  rw [Fin.val_ofNat, Nat.mod_eq_of_lt hk]
  exact placeAt_ofNat lo (by decide) hk

theorem putOPC_eq_ofNat (opc : Byte) : putOPC opc = BitVec.ofNat 32 (opc.toNat <<< 24) := by
  rw [← placeAt_byte opc.isLt, BitVec.ofNat_toNat, BitVec.setWidth_eq, putOPC]

/-! The word of each format, from operands in range, is the union of the numbers in their places. -/

section
variable {opc : Byte}

theorem encodeD3_ofNat {a b c : Nat} (ha : a < 256) (hb : b < 256) (hc : c < 256) :
    encodeD3 opc (BitVec.ofNat 8 a) (BitVec.ofNat 8 b) (BitVec.ofNat 8 c) =
      BitVec.ofNat 32 (opc.toNat <<< 24 ||| a <<< 16 ||| b <<< 8 ||| c) := by
  simp only [encodeD3, putOPC_eq_ofNat, placeAt_byte ha, placeAt_byte hb, placeAt_byte hc, BitVec.ofNat_or, Nat.shiftLeft_zero]

theorem encodeD2_ofNat {dv lo : Nat} (hdv : dv < 256) (hlo : lo < 256) :
    encodeD2 opc (BitVec.ofNat 8 dv) (BitVec.ofNat 8 lo) = BitVec.ofNat 32 (opc.toNat <<< 24 ||| dv <<< 8 ||| lo) := by
  simp only [encodeD2, putOPC_eq_ofNat, placeAt_byte hdv, placeAt_byte hlo, BitVec.ofNat_or, Nat.shiftLeft_zero]

theorem encodeR3_ofNat {d a b : Nat} (hd : d < 8) (ha : a < 8) (hb : b < 8) :
    encodeR3 opc (Fin.ofNat 8 d) (Fin.ofNat 8 a) (Fin.ofNat 8 b) =
      BitVec.ofNat 32 (opc.toNat <<< 24 ||| d <<< 20 ||| a <<< 16 ||| b <<< 12) := by
  simp only [encodeR3, putOPC_eq_ofNat, putRD, putRA, putRB, placeAt_fin hd, placeAt_fin ha, placeAt_fin hb, BitVec.ofNat_or]

theorem encodeR2_ofNat {d a : Nat} (hd : d < 8) (ha : a < 8) :
    encodeR2 opc (Fin.ofNat 8 d) (Fin.ofNat 8 a) = BitVec.ofNat 32 (opc.toNat <<< 24 ||| d <<< 20 ||| a <<< 16) := by
  simp only [encodeR2, putOPC_eq_ofNat, putRD, putRA, placeAt_fin hd, placeAt_fin ha, BitVec.ofNat_or]

theorem encodeR1_ofNat {a : Nat} (ha : a < 8) :
    encodeR1 opc (Fin.ofNat 8 a) = BitVec.ofNat 32 (opc.toNat <<< 24 ||| a <<< 16) := by
  simp only [encodeR1, putOPC_eq_ofNat, putRA, placeAt_fin ha, BitVec.ofNat_or]

theorem encodeSH_ofNat {d n : Nat} (hd : d < 8) (hn : n < 8) :
    encodeSH opc (Fin.ofNat 8 d) (Fin.ofNat 8 n) = BitVec.ofNat 32 (opc.toNat <<< 24 ||| d <<< 20 ||| n) := by
  simp only [encodeSH, putOPC_eq_ofNat, putRD, placeAt_fin hd, placeAt_fin hn, BitVec.ofNat_or, Nat.shiftLeft_zero]

end

/-- Settles O10: an operand in range is a field in its place, and no other operand is well formed. -/
theorem assemblyTableEncodings : Obligations.AssemblyTableEncodings := by
  refine ⟨fun _ => asmEncode_of_illFormed, rfl, fun a b c ha hb hc => ?_, fun lo dv hlo hdv => ?_, fun d a b hd ha hb => ?_,
    fun d n hd hn => ?_, fun d n hd hn => ?_, fun d a hd ha => ?_, fun a ha => ?_, fun d a hd ha => ?_,
    fun d a b hd ha hb => ?_⟩
  · exact asmEncode_eq (by simp [Asm.wellFormed, digitInRange, ha, hb, hc]) (encodeD3_ofNat ha hb hc)
  · exact asmEncode_eq (by simp [Asm.wellFormed, digitInRange, hlo, hdv]) (encodeD2_ofNat hdv hlo)
  · exact asmEncode_eq (by simp [Asm.wellFormed, bufInRange, hd, ha, hb]) (encodeR3_ofNat hd ha hb)
  · exact asmEncode_eq (by simp [Asm.wellFormed, bufInRange, shiftInRange, hd, hn]) (encodeSH_ofNat hd hn)
  · exact asmEncode_eq (by simp [Asm.wellFormed, bufInRange, shiftInRange, hd, hn]) (encodeSH_ofNat hd hn)
  · exact asmEncode_eq (by simp [Asm.wellFormed, bufInRange, hd, ha]) (encodeR2_ofNat hd ha)
  · exact asmEncode_eq (by simp [Asm.wellFormed, bufInRange, ha]) (encodeR1_ofNat ha)
  · exact asmEncode_eq (by simp [Asm.wellFormed, bufInRange, hd, ha]) (encodeR2_ofNat hd ha)
  · exact asmEncode_eq (by simp [Asm.wellFormed, bufInRange, hd, ha, hb]) (encodeR3_ofNat hd ha hb)

/-- MAC of three zeros: the product and the digit are nothing, and CARRY fits one digit (R142). -/
theorem macStep_zero (carry : Byte) : macStep 0 0 0 carry = (carry, 0#8) := by
  simp [macStep, Nat.div_eq_of_lt carry.isLt]

/-- Settles O11: each pair of spellings has one expansion, and CFLUSH's two results are the old CARRY and 0. -/
theorem pseudoInstructionsExpand : Obligations.PseudoInstructionsExpand := by
  refine ⟨fun d a => ?_, fun d => ?_, ?_, fun s => ?_⟩
  · exact asmEncode_congr (by simp [Asm.wellFormed]) rfl
  · exact asmEncode_congr (by simp [Asm.wellFormed]) rfl
  · exact asmEncode_congr rfl rfl
  · rw [exec, execMac, macStep_zero, finish, State.complete]

end Sys2Proof
end

section
/-! PROOFS. Scope: how the engine's turn answers a pending word (R122, R123, R125, R257). -/

namespace Sys2Proof.Machine

theorem step_of_empty {s : State} (h : s.schedule = []) : step s = engineStep s := by
  simp only [step, h]

theorem step_of_engine {s : State} {rest : List Event} (h : s.schedule = .engine :: rest) :
    step s = engineStep { s with schedule := rest } := by
  simp only [step, h, takeEvent]

/-- Settles O14: both ways to the engine's step meet the same pending word. -/
theorem stepRunsTheDecodedCommand : Obligations.StepRunsTheDecodedCommand := by
  refine fun s w i hpend hdecode => ⟨fun rest hsched => ?_, fun hsched => ?_⟩
  · exact (step_of_engine hsched).trans (engineStep_of_command (s := { s with schedule := rest }) hpend hdecode)
  · exact (step_of_empty hsched).trans (engineStep_of_command hpend hdecode)

/-- A pending word that is no command ends in the error completion of its decode error (R125, R244). -/
theorem step_decodeError {s : State} {w : Word} {rest : List Event} {e : DecodeError} (hturn : EngineTurn s w rest)
    (hdecode : decode w = .error e) : step s = errorCompletion (decodeErrCode e) { s with schedule := rest } := by
  obtain ⟨hpend, hsched⟩ := hturn
  exact (step_of_engine hsched).trans (engineStep_of_decodeError (s := { s with schedule := rest }) hpend hdecode)

/-- Settles O12: the assigned opcodes stand outside the three ranges. -/
theorem unassignedOpcodeIsIllegal : Obligations.UnassignedOpcodeIsIllegal := by
  intro s w rest hturn hrange
  have hassigned : ∀ e ∈ reservedBits, ¬(0x03 ≤ e.1.toNat ∧ e.1.toNat ≤ 0x0F ∨ 0x14 ≤ e.1.toNat ∧ e.1.toNat ≤ 0x1F ∨
      0x23 ≤ e.1.toNat) := by simp [reservedBits]
  exact step_decodeError hturn (decode_unassigned fun e he heq => hassigned e he (heq ▸ hrange))

/-- Settles O13: the reserved mask of R122 is that of the opcode's row. -/
theorem reservedBitIsRefused : Obligations.ReservedBitIsRefused :=
  fun _ _ _ _ _ hturn hrow hopc hres => step_decodeError hturn (decode_reserved hrow hopc hres)

end Sys2Proof.Machine
end

section
/-! PROOFS. Scope: NOP, MAC and SDIV, and SDIV's restoring loop (R140 to R146). -/

namespace Sys2Proof.Machine

/-! ## NOP (R141) -/

/-- Settles O20: NOP has nothing to do before its completion. -/
theorem nopOnlyCompletes : Obligations.NopOnlyCompletes :=
  ⟨opcodeTable_encodedAs (0x00#8, .n, _) (.head _), fun _ => rfl⟩

/-! ## MAC (R142, R143) -/

/-- The greatest sum MAC forms is `255 * 255 + 255 + 255`, which two digits hold (R143). -/
theorem mac_sum_le (a b c carry : Byte) : a.toNat * b.toNat + c.toNat + carry.toNat ≤ 65535 := by
  have hprod : a.toNat * b.toNat ≤ 255 * 255 :=
    Nat.mul_le_mul (Nat.le_of_lt_succ a.isLt) (Nat.le_of_lt_succ b.isLt)
  omega

/-- The two digits of `macStep` lose nothing of the sum (R142, R143). -/
theorem macStep_value (a b c carry : Byte) :
    (macStep a b c carry).1.toNat + 256 * (macStep a b c carry).2.toNat = a.toNat * b.toNat + c.toNat + carry.toNat := by
  have hsum := mac_sum_le a b c carry
  simp only [macStep, BitVec.toNat_ofNat]
  omega

/-- Settles O21: the two digits written are those of `macStep`, whose sum never leaves 16 bits. -/
theorem macMultipliesAndAccumulates : Obligations.MacMultipliesAndAccumulates := by
  refine ⟨opcodeTable_encodedAs (0x01#8, .d3, _) (.tail _ (.head _)), fun s a b c => ?_⟩
  exact ⟨_, _, rfl, macStep_value a b c s.carry, mac_sum_le a b c s.carry⟩

/-! ## SDIV (R144, R145) -/

/-- Where the divisor exceeds the high digit, the quotient of the two digits fits one digit (R145). -/
theorem two_digit_div_lt {hi lo dv : Byte} (h : hi.toNat < dv.toNat) : (hi.toNat * 256 + lo.toNat) / dv.toNat < 256 := by
  rw [Nat.div_lt_iff_lt_mul (by omega)]
  omega

/-- `sdivStep` truncates neither the quotient nor the remainder (R144, R145). -/
theorem sdivStep_value {hi lo dv : Byte} (h : hi.toNat < dv.toNat) :
    (sdivStep hi lo dv).1.toNat = (hi.toNat * 256 + lo.toNat) / dv.toNat ∧
      (sdivStep hi lo dv).2.toNat = (hi.toNat * 256 + lo.toNat) % dv.toNat := by
  have hrem : (hi.toNat * 256 + lo.toNat) % dv.toNat < dv.toNat := Nat.mod_lt _ (by omega)
  exact ⟨Nat.mod_eq_of_lt (two_digit_div_lt h), Nat.mod_eq_of_lt (hrem.trans dv.isLt)⟩

/-- Settles O22: the range check stands before any write, and past it `sdivStep` is exact. -/
theorem sdivDividesTwoDigitsByOne : Obligations.SdivDividesTwoDigitsByOne := by
  refine ⟨opcodeTable_encodedAs (0x02#8, .d2, _) (.tail _ (.tail _ (.head _))), fun s lo dv => ⟨fun hle => ?_, fun hlt => ?_⟩⟩
  · exact if_pos (Nat.le_of_not_lt hle)
  · obtain ⟨hquot, hrem⟩ := sdivStep_value (lo := lo) hlt
    exact ⟨_, _, if_neg (Nat.not_le_of_lt hlt), hquot, hrem⟩

/-! ## The restoring loop (R146) -/

/-- The number whose binary form is that of `n` with `bits` after it, the high bit first. -/
def appendBits (n : Nat) (bits : List Bool) : Nat := bits.foldl (fun m bit => 2 * m + bit.toNat) n

/-- The eight bits of a digit, shifted in after `n`, make it the next lower digit (R206). -/
theorem appendBits_digitBits (n : Nat) (d : Byte) : appendBits n (digitBits d) = n * 256 + d.toNat := by
  have hlt := d.isLt
  simp only [appendBits, digitBits, List.foldl_cons, List.foldl_nil, BitVec.getLsbD, Nat.toNat_testBit]
  omega

/-- One iteration doubles `quotient * dv + remainder` and adds the bit, and the remainder stays below the divisor. -/
theorem restoringStep_spec {dv : Nat} {qr : Nat × Nat} (h : qr.2 < dv) (bit : Bool) :
    (restoringStep dv qr bit).2 + dv * (restoringStep dv qr bit).1 = 2 * (qr.2 + dv * qr.1) + bit.toNat ∧
      (restoringStep dv qr bit).2 < dv := by
  have hbit := bit.toNat_le
  have hdouble : dv * (2 * qr.1) = 2 * (dv * qr.1) := Nat.mul_left_comm ..
  simp only [restoringStep]
  split
  · next hfits =>
    simp only [Nat.mul_add, hdouble, Nat.mul_one]
    omega
  · next hbelow =>
    simp only [hdouble]
    omega

/-- After any number of iterations `quotient * dv + remainder` is the number shifted in so far. -/
theorem restoring_foldl {dv : Nat} (bits : List Bool) {qr : Nat × Nat} (h : qr.2 < dv) :
    (bits.foldl (restoringStep dv) qr).2 + dv * (bits.foldl (restoringStep dv) qr).1 =
        appendBits (qr.2 + dv * qr.1) bits ∧
      (bits.foldl (restoringStep dv) qr).2 < dv := by
  induction bits generalizing qr with
  | nil => exact ⟨rfl, h⟩
  | cons bit bits ih =>
    obtain ⟨hvalue, hbelow⟩ := restoringStep_spec h bit
    obtain ⟨hrest, hlast⟩ := ih hbelow
    exact ⟨hrest.trans (congrArg (appendBits · bits) hvalue), hlast⟩

/-- Settles O23: a quotient and a remainder below the divisor that make up the dividend are `div` and `mod`. -/
theorem restoringLoopIsDivision : Obligations.RestoringLoopIsDivision := by
  intro hi lo dv h
  obtain ⟨hvalue, hbelow⟩ := restoring_foldl (digitBits lo) (qr := (0, hi.toNat)) h
  rw [appendBits_digitBits, Nat.mul_zero, Nat.add_zero] at hvalue
  obtain ⟨hquot, hrem⟩ := (Nat.div_mod_unique (Nat.zero_lt_of_lt h)).mpr ⟨hvalue, hbelow⟩
  exact Prod.ext hquot.symm hrem.symm

end Sys2Proof.Machine
end

section
/-! PROOFS. Scope: MUL, SHL, SHR and REDUCE (R160 to R173), and MUL's schoolbook procedure (R163). -/

namespace Sys2Proof.Machine

/-! ## Digit counts of results -/

theorem digitCount_mono {v w : Nat} (h : v ≤ w) : digitCount v ≤ digitCount w :=
  (digitCount_le_iff v _).mpr (h.trans_lt (lt_pow_digitCount w))

/-- A number below 256 times the next one has at most one digit more. -/
theorem digitCount_le_succ {v w : Nat} (h : w < 256 * (v + 1)) : digitCount w ≤ digitCount v + 1 := by
  rw [digitCount_le_iff, pow_succ']
  exact h.trans_le (Nat.mul_le_mul_left 256 (lt_pow_digitCount v))

/-- R162's bounds: two numbers of `m` and `n` digits have a product of `m + n` digits or one less. -/
theorem mul_bounds {x y m n : Nat} (hm : m ≠ 0) (hn : n ≠ 0) (hxlo : 256 ^ (m - 1) ≤ x) (hx : x < 256 ^ m)
    (hylo : 256 ^ (n - 1) ≤ y) (hy : y < 256 ^ n) : 256 ^ (m + n - 2) ≤ x * y ∧ x * y < 256 ^ (m + n) := by
  constructor
  · rw [show m + n - 2 = m - 1 + (n - 1) by omega, pow_add]
    exact Nat.mul_le_mul hxlo hylo
  · rw [pow_add]
    exact Nat.mul_lt_mul'' hx hy

/-- A number that may lack only the top one of its `n` digits has `n` digits or one less as that digit is nonzero or zero. -/
theorem digitCount_of_top {p n : Nat} (hn : 2 ≤ n) (hlo : 256 ^ (n - 2) ≤ p) (hhi : p < 256 ^ n) :
    digitCount p = if p / 256 ^ (n - 1) ≠ 0 then n else n - 1 := by
  split
  · next htop =>
    have hge : 256 ^ (n - 1) ≤ p := (Nat.div_ne_zero_iff.mp htop).2
    have := digitCount_eq p (n - 1) hge (by rwa [Nat.sub_add_cancel (by omega)])
    omega
  · next htop =>
    have hlt : p < 256 ^ (n - 1) := (Nat.div_eq_zero_iff_lt (by positivity)).mp (not_not.mp htop)
    have := digitCount_eq p (n - 2) hlo (by rwa [show n - 2 + 1 = n - 1 by omega])
    omega

/-! ## The schoolbook procedure (R163) -/

/-- One inner pass: the digits up to the carry's place come to hold `as * bj` added to what they held; those above stay. -/
theorem mulPass_spec (bj : Byte) (as lo : List Byte) (top : Byte) (hi : List Byte) (carry : Byte)
    (hlen : lo.length = as.length) :
    ∃ ds, mulPass bj as (lo ++ top :: hi) carry = ds ++ hi ∧ ds.length = as.length + 1 ∧
      digitsVal ds = digitsVal as * bj.toNat + digitsVal lo + carry.toNat := by
  induction as generalizing lo carry with
  | nil =>
    obtain rfl := List.length_eq_zero_iff.mp hlen
    exact ⟨[carry], rfl, rfl, by simp⟩
  | cons a as ih =>
    obtain ⟨r, rs, rfl⟩ := List.exists_cons_of_length_eq_add_one hlen
    obtain ⟨ds, hpass, hdlen, hval⟩ := ih rs (macStep a bj r carry).2 (by simpa using hlen)
    have hmac := macStep_value a bj r carry
    refine ⟨(macStep a bj r carry).1 :: ds, by rw [List.cons_append, mulPass, hpass, List.cons_append], by simp [hdlen], ?_⟩
    simp only [digitsVal_cons, hval]
    linarith

/-- All passes: the digits come to hold `as * bs` added to what they held. -/
theorem mulPasses_spec (as bs lo : List Byte) (hlen : lo.length = as.length) :
    (mulPasses as bs (lo ++ List.replicate bs.length 0#8)).length = as.length + bs.length ∧
      digitsVal (mulPasses as bs (lo ++ List.replicate bs.length 0#8)) = digitsVal lo + digitsVal as * digitsVal bs := by
  induction bs generalizing lo with
  | nil => simp [mulPasses, hlen]
  | cons bj bs ih =>
    obtain ⟨ds, hpass, hdlen, hval⟩ := mulPass_spec bj as lo 0#8 (List.replicate bs.length 0#8) 0#8 hlen
    obtain ⟨d, rest, rfl⟩ := List.exists_cons_of_length_eq_add_one hdlen
    obtain ⟨hrlen, hrval⟩ := ih rest (by simpa using hdlen)
    simp only [digitsVal_cons, BitVec.toNat_zero, Nat.add_zero] at hval
    simp only [List.length_cons, List.replicate_succ, mulPasses, hpass, List.cons_append, digitsVal_cons, hrlen, hrval]
    exact ⟨by omega, by linarith⟩

theorem digitsVal_replicate_zero (n : Nat) : digitsVal (List.replicate n 0#8) = 0 := by
  induction n with
  | zero => rfl
  | succ n ih => simp [List.replicate_succ, ih]

theorem schoolbook_spec (as bs : List Byte) :
    (schoolbook as bs).length = as.length + bs.length ∧ digitsVal (schoolbook as bs) = digitsVal as * digitsVal bs := by
  have h := mulPasses_spec as bs (List.replicate as.length 0#8) (by simp)
  rwa [List.replicate_append_replicate, digitsVal_replicate_zero, Nat.zero_add] at h

/-- The top digit of a list is what its value leaves above the other digits. -/
theorem getD_last_ne_zero_iff (ds : List Byte) (hne : ds ≠ []) :
    ds.getD (ds.length - 1) 0#8 ≠ 0#8 ↔ digitsVal ds / 256 ^ (ds.length - 1) ≠ 0 := by
  have hpos := List.length_pos_iff.mpr hne
  constructor
  · intro htop
    exact (Nat.div_pos (le_digitsVal_of_getD ds _ htop) (by positivity)).ne'
  · intro hdiv htop
    have hlt := digitsVal_take_succ_lt ds (ds.length - 1)
    rw [htop, Nat.sub_add_cancel hpos, List.take_length] at hlt
    exact hdiv ((Nat.div_eq_zero_iff_lt (by positivity)).mpr (by simpa using hlt))

/-- Settles O26: each pass adds one row of the product, and R162's bounds leave only the top digit to be zero. -/
theorem schoolbookIsTheProduct : Obligations.SchoolbookIsTheProduct := by
  intro as bs
  obtain ⟨hlen, hval⟩ := schoolbook_spec as bs
  refine ⟨hlen, hval, fun ha hb => ?_⟩
  have hapos : as.length ≠ 0 := fun h => ha (by simp [List.length_eq_zero_iff.mp h])
  have hbpos : bs.length ≠ 0 := fun h => hb (by simp [List.length_eq_zero_iff.mp h])
  obtain ⟨hlo, hhi⟩ := mul_bounds hapos hbpos (le_digitsVal_of_getD as _ ha) (digitsVal_lt as)
    (le_digitsVal_of_getD bs _ hb) (digitsVal_lt bs)
  have htop := getD_last_ne_zero_iff (schoolbook as bs) (List.ne_nil_of_length_pos (by omega))
  rw [hlen, hval] at htop
  rw [digitCount_of_top (by omega) hlo hhi, schoolbookLen]
  simp only [htop]

/-! ## How a canonical write ends a command -/

theorem keepsAllButBuffer_setval (s : State) (d : BufId) (v : Nat) : KeepsAllButBuffer d s (s.setval d v).complete :=
  ⟨fun k hk => State.setval_buf_other s d k v hk, rfl, ⟨rfl, rfl, rfl⟩, ⟨rfl, rfl, rfl⟩⟩

theorem completesWell_setval (s : State) (d : BufId) (v : Nat) : CompletesWell s (s.setval d v).complete :=
  ⟨rfl, rfl, rfl, rfl, rfl⟩

theorem setval_complete_val (s : State) (d : BufId) (v : Nat) : (s.setval d v).complete.val d = v := by
  simp [State.val]

theorem setval_complete_canonical (s : State) (d : BufId) (v : Nat) : (s.setval d v).complete.canonical d = true := by
  simp [State.canonical]

theorem setval_complete_len (s : State) (d : BufId) (v : Nat) : (s.setval d v).complete.len d = digitCount v := by
  simp [State.len]

/-! ## Canonical operands -/

section
variable {s : State} {i : BufId} (hc : s.canonical i = true)
include hc

theorem State.len_eq_digitCount : s.len i = digitCount (s.val i) := (s.buf i).len_eq_digitCount hc

theorem State.le_val_of_canonical (hlen : s.len i ≠ 0) : 256 ^ (s.len i - 1) ≤ s.val i := (s.buf i).le_val_of_canonical hc hlen

end

theorem State.val_lt (s : State) (i : BufId) : s.val i < 256 ^ s.len i := (s.buf i).val_lt

/-! ## MUL (R161, R162) -/

section
variable {s : State} {d a b : BufId} (hda : d ≠ a) (hdb : d ≠ b)
include hda hdb

theorem exec_mul_noncanonical (h : s.canonical a = false ∨ s.canonical b = false) :
    exec (.mul d a b) s = raise .noncanonical s := by
  rcases h with h | h <;> simp [exec, execMul, hda, hdb, h]

variable (ha : s.canonical a = true) (hb : s.canonical b = true)
include ha hb

theorem exec_mul_capacity (h : s.cap < s.len a + s.len b) : exec (.mul d a b) s = raise .capacity s := by
  simp [exec, execMul, hda, hdb, ha, hb, h]

theorem exec_mul_product (h : s.len a + s.len b ≤ s.cap) :
    exec (.mul d a b) s = .next (s.setval d (s.val a * s.val b)).complete := by
  simp [exec, execMul, hda, hdb, ha, hb, h, finish]

end

/-- Settles O24: past the three checks the product is written, and nothing else. -/
theorem mulWritesTheProduct : Obligations.MulWritesTheProduct := by
  refine ⟨opcodeTable_encodedAs (0x10#8, .r3, _) (by simp [opcodeTable]), fun s d a b => ⟨fun h => ?_, fun hda hdb h => ?_,
    fun hda hdb ha hb h => ?_, fun hda hdb ha hb h => ?_⟩⟩
  · exact if_pos h
  · exact exec_mul_noncanonical hda hdb h
  · exact exec_mul_capacity hda hdb ha hb h
  · exact ⟨_, exec_mul_product hda hdb ha hb h, setval_complete_val _ _ _, setval_complete_canonical _ _ _,
      completesWell_setval _ _ _, keepsAllButBuffer_setval _ _ _⟩

/-- Settles O25: the length written is the product's digit count, and R162's bounds leave it two values. -/
theorem mulLengthLaw : Obligations.MulLengthLaw := by
  intro s t d a b hda hdb ha hb hfit ht
  cases (exec_mul_product hda hdb ha hb hfit).symm.trans ht
  rw [setval_complete_len]
  refine ⟨fun hzero => ?_, fun hla hlb => ?_⟩
  · rw [State.len_eq_digitCount ha, State.len_eq_digitCount hb, digitCount_eq_zero_iff, digitCount_eq_zero_iff] at hzero
    rwa [digitCount_eq_zero_iff, Nat.mul_eq_zero]
  · obtain ⟨hlo, hhi⟩ := mul_bounds hla hlb (State.le_val_of_canonical ha hla) (s.val_lt a)
      (State.le_val_of_canonical hb hlb) (s.val_lt b)
    exact ⟨hlo, hhi, digitCount_of_top (by omega) hlo hhi⟩

/-! ## SHL and SHR (R164, R165) -/

theorem two_pow_shiftCount_le (n : ShiftCount) : 2 ^ n.val ≤ 256 :=
  Nat.pow_le_pow_right (n := 2) (by decide) n.isLt.le

/-- A shift left by less than a digit adds one digit or none. -/
theorem digitCount_shl (v : Nat) (n : ShiftCount) :
    digitCount (v * 2 ^ n.val) = digitCount v ∨ digitCount (v * 2 ^ n.val) = digitCount v + 1 := by
  have hlow : digitCount v ≤ digitCount (v * 2 ^ n.val) := digitCount_mono (Nat.le_mul_of_pos_right v (by positivity))
  have hhigh : digitCount (v * 2 ^ n.val) ≤ digitCount v + 1 := by
    have := Nat.mul_le_mul_left v (two_pow_shiftCount_le n)
    exact digitCount_le_succ (by omega)
  omega

/-- A shift right by less than a digit takes one digit or none. -/
theorem digitCount_shr (v : Nat) (n : ShiftCount) :
    digitCount (v / 2 ^ n.val) = digitCount v ∨ digitCount (v / 2 ^ n.val) + 1 = digitCount v := by
  have hhigh : digitCount (v / 2 ^ n.val) ≤ digitCount v := digitCount_mono (Nat.div_le_self v _)
  have hlow : digitCount v ≤ digitCount (v / 2 ^ n.val) + 1 := by
    have hlt := Nat.lt_mul_div_succ v (b := 2 ^ n.val) (by positivity)
    exact digitCount_le_succ (hlt.trans_le (Nat.mul_le_mul_right _ (two_pow_shiftCount_le n)))
  omega

section
variable {s : State} {d : BufId} {n : ShiftCount}

theorem exec_shl_noncanonical (hc : s.canonical d = false) : exec (.shl d n) s = raise .noncanonical s :=
  if_pos (by simp [hc])

theorem exec_shr_noncanonical (hc : s.canonical d = false) : exec (.shr d n) s = raise .noncanonical s :=
  if_pos (by simp [hc])

variable (hc : s.canonical d = true)
include hc

theorem exec_shl_unchanged (h : n.val = 0 ∨ s.len d = 0) : exec (.shl d n) s = .next s.complete :=
  (if_neg (by simp [hc])).trans (if_pos h)

theorem exec_shr_unchanged (h : n.val = 0 ∨ s.len d = 0) : exec (.shr d n) s = .next s.complete :=
  (if_neg (by simp [hc])).trans (if_pos h)

variable (h : ¬(n.val = 0 ∨ s.len d = 0))
include h

theorem exec_shl_capacity (hfull : s.len d = s.cap ∧ (s.buf d).topDigit.toNat / 2 ^ (8 - n.val) ≠ 0) :
    exec (.shl d n) s = raise .capacity s :=
  (if_neg (by simp [hc])).trans ((if_neg h).trans (if_pos hfull))

theorem exec_shl_value (hfit : ¬(s.len d = s.cap ∧ (s.buf d).topDigit.toNat / 2 ^ (8 - n.val) ≠ 0)) :
    exec (.shl d n) s = .next (s.setval d (s.val d * 2 ^ n.val)).complete :=
  (if_neg (by simp [hc])).trans ((if_neg h).trans (if_neg hfit))

theorem exec_shr_value : exec (.shr d n) s = .next (s.setval d (s.val d / 2 ^ n.val)).complete :=
  (if_neg (by simp [hc])).trans (if_neg h)

end

/-- Settles O27: past the checks the shifted value is written, and a shift by less than a digit adds one digit at most. -/
theorem shlMultipliesByAPowerOfTwo : Obligations.ShlMultipliesByAPowerOfTwo := by
  refine ⟨opcodeTable_encodedAs (0x11#8, .sh, _) (by simp [opcodeTable]), fun s d n => ⟨exec_shl_noncanonical,
    exec_shl_unchanged, fun hc hn hlen hfull htop => ?_, fun hc hn hlen hfit => ?_⟩⟩
  · exact exec_shl_capacity hc (not_or.mpr ⟨hn, hlen⟩) ⟨hfull, htop⟩
  · refine ⟨_, exec_shl_value hc (not_or.mpr ⟨hn, hlen⟩) hfit, setval_complete_val _ _ _, setval_complete_canonical _ _ _, ?_,
      completesWell_setval _ _ _, keepsAllButBuffer_setval _ _ _⟩
    rw [setval_complete_len, State.len_eq_digitCount hc]
    exact digitCount_shl _ n

/-- Settles O28: past the check the shifted value is written, and a shift by less than a digit takes one digit at most. -/
theorem shrDividesByAPowerOfTwo : Obligations.ShrDividesByAPowerOfTwo := by
  refine ⟨opcodeTable_encodedAs (0x12#8, .sh, _) (by simp [opcodeTable]), fun s d n => ⟨exec_shr_noncanonical,
    exec_shr_unchanged, fun hc hn hlen => ?_⟩⟩
  refine ⟨_, exec_shr_value hc (not_or.mpr ⟨hn, hlen⟩), setval_complete_val _ _ _, setval_complete_canonical _ _ _, ?_,
    completesWell_setval _ _ _, keepsAllButBuffer_setval _ _ _⟩
  rw [setval_complete_len, State.len_eq_digitCount hc]
  exact digitCount_shr _ n

/-- A shift left that leaves ERR 0 found its operand canonical, and changed nothing or wrote the shifted value. -/
theorem exec_shl_succeeds {s t : State} {d : BufId} {n : ShiftCount} (ht : exec (.shl d n) s = .next t) (herr : t.err = false) :
    s.canonical d = true ∧ ((n.val = 0 ∨ s.len d = 0) ∧ t = s.complete ∨
      ¬(n.val = 0 ∨ s.len d = 0) ∧ t = (s.setval d (s.val d * 2 ^ n.val)).complete) := by
  cases hc : s.canonical d with
  | false =>
    cases (exec_shl_noncanonical hc).symm.trans ht
    cases herr
  | true =>
    refine ⟨rfl, ?_⟩
    by_cases h : n.val = 0 ∨ s.len d = 0
    · cases (exec_shl_unchanged hc h).symm.trans ht
      exact .inl ⟨h, rfl⟩
    · by_cases hfull : s.len d = s.cap ∧ (s.buf d).topDigit.toNat / 2 ^ (8 - n.val) ≠ 0
      · cases (exec_shl_capacity hc h hfull).symm.trans ht
        cases herr
      · cases (exec_shl_value hc h hfull).symm.trans ht
        exact .inr ⟨h, rfl⟩

/-- Settles O29: both shifts change nothing in the same cases, and elsewhere the division takes back the factor; two canonical
buffers of one value have one length. -/
theorem shrUndoesShl : Obligations.ShrUndoesShl := by
  intro s t d n herr ht hterr
  obtain ⟨hc, ⟨h, rfl⟩ | ⟨h, rfl⟩⟩ := exec_shl_succeeds ht hterr
  · exact ⟨_, exec_shr_unchanged (s := s.complete) hc h, rfl, rfl, herr⟩
  · obtain ⟨hn, hlen⟩ := not_or.mp h
    have hval := State.le_val_of_canonical hc hlen
    have hlen' : (s.setval d (s.val d * 2 ^ n.val)).complete.len d ≠ 0 := by
      rw [setval_complete_len, ne_eq, digitCount_eq_zero_iff]
      have : 0 < s.val d := lt_of_lt_of_le (by positivity) hval
      positivity
    refine ⟨_, exec_shr_value (setval_complete_canonical s d _) (not_or.mpr ⟨hn, hlen'⟩), ?_, ?_, herr⟩
    · rw [setval_complete_val, setval_complete_val, Nat.mul_div_cancel _ (by positivity)]
    · rw [setval_complete_len, setval_complete_val, Nat.mul_div_cancel _ (by positivity), State.len_eq_digitCount hc]

/-! ## REDUCE (R170 to R173) -/

section
variable {s : State} {d a : BufId} (hda : d ≠ a)
include hda

theorem exec_reduce_noncanonical (h : s.canonical d = false ∨ s.canonical a = false) :
    exec (.reduce d a) s = raise .noncanonical s := by
  rcases h with h | h <;> simp [exec, execReduce, hda, h]

variable (hd : s.canonical d = true) (ha : s.canonical a = true)
include hd ha

theorem exec_reduce_divisorShort (h : s.len a < 2) : exec (.reduce d a) s = raise .divisorShort s := by
  simp [exec, execReduce, hda, hd, ha, h]

theorem exec_reduce_unchanged (hlen : 2 ≤ s.len a) (h : s.len d < s.len a) : exec (.reduce d a) s = .next s.complete :=
  (if_neg hda).trans ((if_neg (by simp [hd, ha])).trans ((if_neg (Nat.not_lt.mpr hlen)).trans (if_pos h)))

theorem exec_reduce_remainder (hlen : 2 ≤ s.len a) (h : s.len a ≤ s.len d) :
    exec (.reduce d a) s = .next (s.setval d (s.val d % s.val a)).complete :=
  (if_neg hda).trans ((if_neg (by simp [hd, ha])).trans ((if_neg (Nat.not_lt.mpr hlen)).trans (if_neg (Nat.not_lt.mpr h))))

end

/-- A canonical number of fewer digits is the smaller one (R171). -/
theorem State.val_lt_of_len_lt {s : State} {d a : BufId} (ha : s.canonical a = true) (h : s.len d < s.len a) :
    s.val d < s.val a :=
  calc s.val d < 256 ^ s.len d := s.val_lt d
    _ ≤ 256 ^ (s.len a - 1) := Nat.pow_le_pow_right (by decide) (by omega)
    _ ≤ s.val a := State.le_val_of_canonical ha (by omega)

/-- Settles O30: past the checks a shorter dividend is its own remainder, and otherwise the remainder is written and no more. -/
theorem reduceWritesTheRemainder : Obligations.ReduceWritesTheRemainder := by
  refine ⟨opcodeTable_encodedAs (0x13#8, .r2, _) (by simp [opcodeTable]), fun s d a => ⟨fun h => ?_,
    exec_reduce_noncanonical, exec_reduce_divisorShort, fun hda hd ha hlen h => ?_, fun hda hd ha hlen h => ?_⟩⟩
  · exact if_pos h
  · exact ⟨exec_reduce_unchanged hda hd ha hlen h, Nat.mod_eq_of_lt (State.val_lt_of_len_lt ha h)⟩
  · have hpos : 0 < s.val a := lt_of_lt_of_le (by positivity) (State.le_val_of_canonical ha (by omega))
    refine ⟨_, exec_reduce_remainder hda hd ha hlen h, setval_complete_val _ _ _, ?_, setval_complete_canonical _ _ _,
      State.setval_buf_other _ _ _ _ hda.symm, completesWell_setval _ _ _, keepsAllButBuffer_setval _ _ _⟩
    rw [setval_complete_val]
    exact Nat.mod_lt _ hpos

end Sys2Proof.Machine
end

section
/-! PROOFS. Scope: Algorithm D, REDUCE's reference procedure (R181 to R187): the estimate's bounds at one position, and the
remainder. -/

namespace Sys2Proof.Machine.AlgorithmD

/-! ## Digits and leading parts -/

/-- The leading part of a number down to digit `k` is the part above it with that digit appended. -/
theorem div_pow_eq_append_digit (x k : Nat) : x / 256 ^ k = x / 256 ^ (k + 1) * 256 + digitOf x k := by
  rw [digitOf, pow_succ, ← Nat.div_div_eq_div_mul]
  omega

theorem digitOf_top {x k : Nat} (h : x < 256 ^ (k + 1)) : digitOf x k = x / 256 ^ k := by
  rw [div_pow_eq_append_digit, Nat.div_eq_of_lt h, Nat.zero_mul, Nat.zero_add]

theorem digitOf_lt (x k : Nat) : digitOf x k < 256 := Nat.mod_lt _ (by decide)

theorem window_lt (u n j : Nat) : window u n j < 256 ^ (n + 1) := Nat.mod_lt _ (by positivity)

/-- The digits of the window are those of the dividend from position `j` up (R184). -/
theorem digitOf_window (u j : Nat) {n i : Nat} (hi : i ≤ n) : digitOf (window u n j) i = digitOf u (j + i) := by
  have hsplit : 256 ^ (n + 1) = 256 ^ i * 256 ^ (n + 1 - i) := by rw [← pow_add]; congr 1; omega
  have hdvd : 256 ∣ 256 ^ (n + 1 - i) := dvd_pow_self 256 (by omega)
  rw [digitOf, window, hsplit, Nat.mod_mul_right_div_self, Nat.mod_mod_of_dvd _ hdvd, Nat.div_div_eq_div_mul, ← pow_add,
    digitOf]

/-- A quotient of leading parts never falls short of the quotient (R186). -/
theorem div_le_div_leading {w v D : Nat} (hv : 0 < v / D) : w / v ≤ w / D / (v / D) := by
  have hD : 0 < D := Nat.pos_of_ne_zero fun h => by simp [h] at hv
  rw [Nat.le_div_iff_mul_le hv, Nat.le_div_iff_mul_le hD, mul_assoc]
  exact (Nat.mul_le_mul_left _ (Nat.div_mul_le_self v D)).trans (Nat.div_mul_le_self w v)

/-- A quotient of leading parts is high by no more than what the divisor's other digits can account for (R186). -/
theorem le_div_add_of_leading {w v D c k : Nat} (hv : 0 < v) (hD : 0 < D) (hc : c * (v / D) ≤ w / D) (hk : c * D ≤ k * v) :
    c ≤ w / v + k := by
  rw [← Nat.add_mul_div_right w k hv, Nat.le_div_iff_mul_le hv]
  have hlead := (Nat.le_div_iff_mul_le hD).mp hc
  have hsplit : v ≤ v / D * D + D := (Nat.lt_div_mul_add hD).le
  calc c * v ≤ c * (v / D * D + D) := Nat.mul_le_mul_left c hsplit
    _ = c * (v / D) * D + c * D := by ring
    _ ≤ w + k * v := Nat.add_le_add hlead hk

/-! ## The divisor's and the window's leading digits -/

theorem window_top (u n j : Nat) : digitOf u (j + n) = window u n j / 256 ^ n := by
  rw [← digitOf_window u j le_rfl, digitOf_top (window_lt u n j)]

section
variable {v n : Nat} (hn : 2 ≤ n)
include hn

theorem window_top_two (u j : Nat) :
    digitOf u (j + n) * 256 + digitOf u (j + n - 1) = window u n j / 256 ^ (n - 1) := by
  rw [div_pow_eq_append_digit _ (n - 1), Nat.sub_add_cancel (by omega), digitOf_window u j (by omega), window_top,
    Nat.add_sub_assoc (by omega)]

theorem window_top_three (u j : Nat) :
    window u n j / 256 ^ (n - 1) * 256 + digitOf u (j + n - 2) = window u n j / 256 ^ (n - 2) := by
  rw [div_pow_eq_append_digit _ (n - 2), show n - 2 + 1 = n - 1 by omega, digitOf_window u j (by omega),
    Nat.add_sub_assoc (by omega)]

theorem divisor_top_two : v / 256 ^ (n - 1) * 256 + digitOf v (n - 2) = v / 256 ^ (n - 2) := by
  rw [div_pow_eq_append_digit v (n - 2), show n - 2 + 1 = n - 1 by omega]

theorem divisor_top (hlt : v < 256 ^ n) : digitOf v (n - 1) = v / 256 ^ (n - 1) :=
  digitOf_top (by rwa [Nat.sub_add_cancel (by omega)])

end

/-! ## One position: estimate and correction (R182, R183, R186, R187) -/

/-- A quotient digit and its partial remainder, as the estimate leaves them and each pass of the correction keeps them: together
they make up the window's two leading digits. -/
def IsEstimate (u v n j : Nat) (qr : Nat × Nat) : Prop :=
  qr.1 ≤ 255 ∧ qr.1 * (v / 256 ^ (n - 1)) + qr.2 = window u n j / 256 ^ (n - 1)

/-- The quotient of the window's three leading digits by the divisor's two, which the correction holds the estimate to (R183). -/
def leadingQuotient (u v n j : Nat) : Nat := window u n j / 256 ^ (n - 2) / (v / 256 ^ (n - 2))

/-- What R186 asks of a position: a divisor of `n` digits with its top bit set, and a window below 256 times it. -/
structure Position (u v n j : Nat) : Prop where
  two_le : 2 ≤ n
  normalized : 128 * 256 ^ (n - 1) ≤ v
  fits : v < 256 ^ n
  window_below : window u n j < 256 * v

section
variable {u v n j : Nat} (h : Position u v n j)
include h

theorem Position.divisor_pos : 0 < v := lt_of_lt_of_le (by positivity) h.normalized

theorem Position.top_ge : 128 ≤ v / 256 ^ (n - 1) := (Nat.le_div_iff_mul_le (by positivity)).mpr h.normalized

theorem Position.top_two_pos : 0 < v / 256 ^ (n - 2) := by
  have := h.top_ge
  rw [← divisor_top_two h.two_le]
  omega

/-- The divisor has more than 255 times the weight of its third digit. -/
theorem Position.third_digit_le : 255 * 256 ^ (n - 2) ≤ v := by
  have hpow : 256 ^ (n - 1) = 256 * 256 ^ (n - 2) := by
    rw [← pow_succ', show n - 2 + 1 = n - 1 by have := h.two_le; omega]
  have := h.normalized
  omega

theorem Position.quotient_le : window u n j / v ≤ 255 :=
  Nat.le_of_lt_succ ((Nat.div_lt_iff_lt_mul h.divisor_pos).mpr h.window_below)

theorem Position.top_le : digitOf u (j + n) ≤ digitOf v (n - 1) := by
  have hpow : 256 ^ n = 256 ^ (n - 1) * 256 := by rw [← pow_succ, Nat.sub_add_cancel (by have := h.two_le; omega)]
  have hsplit : v < (v / 256 ^ (n - 1) + 1) * 256 ^ (n - 1) := by
    rw [Nat.add_one_mul]
    exact Nat.lt_div_mul_add (by positivity)
  have hlead : window u n j / 256 ^ (n - 1) < 256 * (v / 256 ^ (n - 1) + 1) := by
    rw [Nat.div_lt_iff_lt_mul (by positivity), mul_assoc]
    exact h.window_below.trans (Nat.mul_lt_mul_of_pos_left hsplit (by decide))
  rw [divisor_top h.two_le h.fits, window_top, hpow, ← Nat.div_div_eq_div_mul]
  omega

/-- The estimate is the quotient of the window's two leading digits by the divisor's top digit, held to one digit (R182). -/
theorem Position.estimate_isEstimate : IsEstimate u v n j (estimate u v n j) := by
  have hle := h.top_le
  have hlow := digitOf_lt u (j + n - 1)
  have htop := h.top_ge
  simp only [IsEstimate, estimate, ← window_top_two h.two_le]
  rw [divisor_top h.two_le h.fits] at hle ⊢
  split
  · next heq =>
    simp only [heq]
    omega
  · next hne =>
    exact ⟨Nat.le_of_lt_succ (Nat.div_lt_of_lt_mul (by omega)), Nat.div_add_mod' _ _⟩

theorem Position.quotient_le_estimate : window u n j / v ≤ (estimate u v n j).1 := by
  have htop := h.top_ge
  simp only [estimate]
  split
  · exact h.quotient_le
  · rw [window_top_two h.two_le, divisor_top h.two_le h.fits]
    exact div_le_div_leading (by omega)

theorem Position.estimate_le : (estimate u v n j).1 ≤ window u n j / v + 2 := by
  obtain ⟨hq, hqr⟩ := h.estimate_isEstimate
  refine le_div_add_of_leading h.divisor_pos (D := 256 ^ (n - 1)) (by positivity) (by omega) ?_
  have hdigit := Nat.mul_le_mul_right (256 ^ (n - 1)) hq
  have := h.normalized
  omega

theorem Position.quotient_le_leading : window u n j / v ≤ leadingQuotient u v n j :=
  div_le_div_leading h.top_two_pos

/-- The loop's test compares the estimate with the leading digits' quotient; where the partial remainder has left one digit, that
comparison fails by itself (R183, R187). -/
theorem Position.tooHigh_iff {qr : Nat × Nat} (hqr : IsEstimate u v n j qr) :
    tooHigh u v n j qr = true ↔ leadingQuotient u v n j < qr.1 := by
  obtain ⟨hq, hsum⟩ := hqr
  have hdigit : qr.1 * digitOf v (n - 2) ≤ 255 * 255 :=
    Nat.mul_le_mul hq (Nat.le_of_lt_succ (digitOf_lt v (n - 2)))
  rw [leadingQuotient, Nat.div_lt_iff_lt_mul h.top_two_pos, ← window_top_three h.two_le, ← divisor_top_two h.two_le, ← hsum,
    tooHigh, Bool.and_eq_true, decide_eq_true_iff, decide_eq_true_iff, Nat.mul_add, ← Nat.mul_assoc]
  omega

/-- A pass keeps the window's two leading digits (R183). -/
theorem Position.lower_isEstimate {qr : Nat × Nat} (hqr : IsEstimate u v n j qr) (hpos : 0 < qr.1) :
    IsEstimate u v n j (lower v n qr) := by
  obtain ⟨hq, hsum⟩ := hqr
  refine ⟨by simp only [lower]; omega, ?_⟩
  have hone : qr.1 * (v / 256 ^ (n - 1)) = (qr.1 - 1) * (v / 256 ^ (n - 1)) + v / 256 ^ (n - 1) := by
    rw [← Nat.add_one_mul, Nat.sub_add_cancel hpos]
  simp only [lower, divisor_top h.two_le h.fits]
  omega

/-- The correction takes the estimate down to the quotient of the leading digits, by at most its passes (R183). -/
theorem Position.correct_spec (k : Nat) {qr : Nat × Nat} (hqr : IsEstimate u v n j qr) :
    IsEstimate u v n j (correct u v n j k qr) ∧
      (correct u v n j k qr).1 = max (qr.1 - k) (min qr.1 (leadingQuotient u v n j)) := by
  induction k generalizing qr with
  | zero => exact ⟨hqr, by simp only [correct]; omega⟩
  | succ k ih =>
    have htest := h.tooHigh_iff hqr
    rw [correct]
    split
    · next hhigh =>
      rw [htest] at hhigh
      obtain ⟨hest, hfst⟩ := ih (h.lower_isEstimate hqr (by omega))
      refine ⟨hest, hfst.trans ?_⟩
      simp only [lower]
      omega
    · next hdone =>
      rw [htest] at hdone
      exact ⟨hqr, by omega⟩

/-- With passes enough for any digit, the correction ends at the quotient of the leading digits where the estimate exceeds it. -/
theorem Position.corrected_eq :
    corrected u v n j = min (estimate u v n j).1 (leadingQuotient u v n j) := by
  obtain ⟨hq, -⟩ := h.estimate_isEstimate
  obtain ⟨-, hfst⟩ := h.correct_spec 256 h.estimate_isEstimate
  rw [corrected, hfst]
  omega

theorem Position.two_passes_suffice : tooHigh u v n j (correct u v n j 2 (estimate u v n j)) = false := by
  obtain ⟨hest, hfst⟩ := h.correct_spec 2 h.estimate_isEstimate
  have hle := h.estimate_le
  have hlead := h.quotient_le_leading
  rw [Bool.eq_false_iff, ne_eq, h.tooHigh_iff hest, hfst]
  omega

theorem Position.quotient_le_corrected : window u n j / v ≤ corrected u v n j := by
  rw [h.corrected_eq]
  exact le_min h.quotient_le_estimate h.quotient_le_leading

theorem Position.corrected_mul_le : corrected u v n j * (v / 256 ^ (n - 2)) ≤ window u n j / 256 ^ (n - 2) := by
  rw [← Nat.le_div_iff_mul_le h.top_two_pos, h.corrected_eq]
  exact min_le_right _ _

theorem Position.corrected_le_digit : corrected u v n j ≤ 255 := by
  obtain ⟨hq, -⟩ := h.estimate_isEstimate
  rw [h.corrected_eq]
  exact (min_le_left _ _).trans hq

theorem Position.corrected_le : corrected u v n j ≤ window u n j / v + 1 := by
  refine le_div_add_of_leading h.divisor_pos (D := 256 ^ (n - 2)) (by positivity) h.corrected_mul_le ?_
  rw [Nat.one_mul]
  exact (Nat.mul_le_mul_right _ h.corrected_le_digit).trans h.third_digit_le

/-- A divisor of two digits has no digits that the test does not see. -/
theorem Position.corrected_eq_of_two (h2 : n = 2) : corrected u v n j = window u n j / v := by
  have hle := h.corrected_mul_le
  simp only [h2, Nat.sub_self, pow_zero, Nat.div_one] at hle
  refine le_antisymm ?_ h.quotient_le_corrected
  rw [Nat.le_div_iff_mul_le h.divisor_pos, h2]
  exact hle

end

/-- Settles O32: the estimate and its correction are quotients of leading parts, between the true digit and a bounded excess. -/
theorem quotientEstimateBounds : Obligations.QuotientEstimateBounds := by
  intro u v n j hn hnorm hfits hwindow
  have h : Position u v n j := ⟨hn, hnorm, hfits, hwindow⟩
  exact ⟨h.top_le, h.quotient_le_estimate, h.estimate_le, h.two_passes_suffice, h.quotient_le_corrected, h.corrected_le,
    h.corrected_eq_of_two⟩

/-! ## Subtraction, the loop over positions, and normalization (R181, R184, R185) -/

/-- The add-back makes up for a quotient digit that is high by one, so that the window's remainder is left either way (R184). -/
theorem Position.subtractWindow_eq {u v n j : Nat} (h : Position u v n j) :
    subtractWindow (window u n j) v (corrected u v n j) = (window u n j % v : Nat) := by
  have hmod := Nat.mod_lt (window u n j) h.divisor_pos
  have hsplit : ((window u n j : Nat) : Int) = (window u n j / v : Nat) * (v : Int) + (window u n j % v : Nat) := by
    exact_mod_cast (Nat.div_add_mod' (window u n j) v).symm
  have hcases : corrected u v n j = window u n j / v ∨ corrected u v n j = window u n j / v + 1 := by
    have := h.quotient_le_corrected
    have := h.corrected_le
    omega
  rw [subtractWindow]
  rcases hcases with hexact | hhigh
  · rw [hexact, hsplit, add_sub_cancel_left, if_neg (by omega)]
  · rw [hhigh, hsplit, Nat.cast_add_one, add_one_mul, add_sub_add_left_eq_sub, if_pos (by omega), sub_add_cancel]

section
variable {v n : Nat} (hn : 2 ≤ n) (hnorm : 128 * 256 ^ (n - 1) ≤ v) (hfits : v < 256 ^ n)
include hn hnorm hfits

/-- Before position `j` the number above it is below 256 times the divisor, which is what R186 asks. -/
theorem window_eq_of_lt {u j : Nat} (hu : u < 256 ^ (j + 1) * v) :
    window u n j = u / 256 ^ j ∧ Position u v n j := by
  have habove : u / 256 ^ j < 256 * v := by
    rwa [Nat.div_lt_iff_lt_mul (by positivity), mul_right_comm, ← pow_succ']
  have hwindow : window u n j = u / 256 ^ j := Nat.mod_eq_of_lt (by rw [pow_succ]; omega)
  exact ⟨hwindow, hn, hnorm, hfits, hwindow ▸ habove⟩

/-- Steps 2 to 4 at position `j` reduce the whole dividend modulo the divisor at that position. -/
theorem divideAt_eq_mod {u j : Nat} (hu : u < 256 ^ (j + 1) * v) : divideAt u v n j = u % (256 ^ j * v) := by
  obtain ⟨hwindow, h⟩ := window_eq_of_lt hn hnorm hfits hu
  have hmod := Nat.mod_lt (u / 256 ^ j) h.divisor_pos
  have hfit : u / 256 ^ j % v < 256 ^ (n + 1) := by rw [pow_succ]; omega
  have habove : u < 256 ^ (j + n + 1) :=
    calc u < 256 ^ (j + 1) * v := hu
      _ ≤ 256 ^ (j + 1) * 256 ^ n := Nat.mul_le_mul_left _ hfits.le
      _ = 256 ^ (j + n + 1) := by rw [← pow_add]; congr 1; omega
  rw [divideAt, h.subtractWindow_eq, hwindow, Int.toNat_natCast, putWindow, Nat.mod_eq_of_lt hfit,
    Nat.div_eq_of_lt habove, Nat.mul_zero, Nat.add_zero, Nat.mod_mul]

theorem divideDown_eq_mod (k : Nat) {u : Nat} (hu : u < 256 ^ k * v) : divideDown v n k u = u % v := by
  induction k generalizing u with
  | zero => exact (Nat.mod_eq_of_lt (by rwa [pow_zero, Nat.one_mul] at hu)).symm
  | succ k ih =>
    have hpos : 0 < 256 ^ k * v := Nat.mul_pos (by positivity) (Nat.pos_of_lt_mul_left hu)
    rw [divideDown, divideAt_eq_mod hn hnorm hfits hu, ih (Nat.mod_lt _ hpos), Nat.mod_mod_of_dvd _ (Nat.dvd_mul_left _ _)]

end

/-- The normalization count brings the divisor's top bit to the top of its digit, and no further (R181). -/
theorem normCount_spec {b n : Nat} (hn : 2 ≤ n) (hlo : 256 ^ (n - 1) ≤ b) (hhi : b < 256 ^ n) :
    128 * 256 ^ (n - 1) ≤ b * 2 ^ normCount b n ∧ b * 2 ^ normCount b n < 256 ^ n := by
  have hP : 0 < 256 ^ (n - 1) := by positivity
  have hpow : 256 ^ n = 256 * 256 ^ (n - 1) := by rw [← pow_succ', Nat.sub_add_cancel (by omega)]
  have htop : b / 256 ^ (n - 1) < 256 := by rwa [Nat.div_lt_iff_lt_mul hP, ← hpow]
  have hne : b / 256 ^ (n - 1) ≠ 0 := (Nat.div_pos hlo hP).ne'
  have hlog : Nat.log2 (b / 256 ^ (n - 1)) < 8 := (Nat.log2_lt hne).mpr htop
  obtain ⟨l, hl⟩ : ∃ l, Nat.log2 (b / 256 ^ (n - 1)) = l := ⟨_, rfl⟩
  have hcount : normCount b n = 7 - l := by rw [normCount, msb, divisor_top hn hhi, hl]
  have hmsb_le : 2 ^ l * 256 ^ (n - 1) ≤ b := (Nat.le_div_iff_mul_le hP).mp (hl ▸ Nat.log2_self_le hne)
  have hlt_msb : b < 2 ^ (l + 1) * 256 ^ (n - 1) := (Nat.div_lt_iff_lt_mul hP).mp (hl ▸ Nat.lt_log2_self)
  rw [hl] at hlog
  rw [hcount]
  constructor
  · calc 128 * 256 ^ (n - 1) = 2 ^ l * 256 ^ (n - 1) * 2 ^ (7 - l) := by
          rw [mul_right_comm, ← pow_add, Nat.add_sub_cancel' (by omega)]; norm_num
      _ ≤ b * 2 ^ (7 - l) := Nat.mul_le_mul_right _ hmsb_le
  · calc b * 2 ^ (7 - l) < 2 ^ (l + 1) * 256 ^ (n - 1) * 2 ^ (7 - l) := Nat.mul_lt_mul_of_pos_right hlt_msb (by positivity)
      _ = 256 ^ n := by rw [mul_right_comm, ← pow_add, show l + 1 + (7 - l) = 8 by omega, hpow]; norm_num

/-- Settles O31: normalizing scales both operands, each position reduces what is left of the dividend, and the scaled remainder
is below the scaled divisor, which has `n` digits. -/
theorem algorithmDIsTheRemainder : Obligations.AlgorithmDIsTheRemainder := by
  intro a b sd n hn hsd ha hlo hhi
  obtain ⟨hnorm, hfits⟩ := normCount_spec hn hlo hhi
  have hscale : 0 < 2 ^ normCount b n := by positivity
  have hbelow : a * 2 ^ normCount b n < 256 ^ (sd - n + 1) * (b * 2 ^ normCount b n) := by
    rw [← mul_assoc]
    refine Nat.mul_lt_mul_of_pos_right (ha.trans_le ?_) hscale
    calc 256 ^ sd = 256 ^ (sd - n + 1) * 256 ^ (n - 1) := by rw [← pow_add]; congr 1; omega
      _ ≤ 256 ^ (sd - n + 1) * b := Nat.mul_le_mul_left _ hlo
  have hrem : a % b * 2 ^ normCount b n < 256 ^ n :=
    (Nat.mul_lt_mul_of_pos_right (Nat.mod_lt a (lt_of_lt_of_le (by positivity) hlo)) hscale).trans hfits
  rw [remainder, divideDown_eq_mod hn hnorm hfits _ hbelow, Nat.mul_mod_mul_right, Nat.mod_eq_of_lt hrem,
    Nat.mul_div_cancel _ hscale]

end Sys2Proof.Machine.AlgorithmD
end

section
/-! PROOFS. Scope: SETMOD, MODMUL and MODEXP (R200 to R208): the modulus installed, the products modulo N, and the
square-and-multiply controller. -/

namespace Sys2Proof.Machine

theorem Inv.one_lt_modVal {s : State} (h : Inv s) (hvalid : s.modulus.valid = true) : 1 < s.modVal :=
  lt_of_lt_of_le (by decide) (validModulusIsAtLeast256 s h hvalid)

/-- MODMUL and MODEXP check the modulus before everything else (R200, R246). -/
theorem exec_modmul_unset {s : State} (d a : BufId) (h : s.modulus.valid = false) :
    exec (.modmul d a) s = raise .modulusUnset s :=
  if_pos (by simp [h])

theorem exec_modexp_unset {s : State} (d a b : BufId) (h : s.modulus.valid = false) :
    exec (.modexp d a b) s = raise .modulusUnset s :=
  if_pos (by simp [h])

/-! ## The controller of MODEXP (R206) -/

theorem appendBits_append (n : Nat) (xs ys : List Bool) : appendBits n (xs ++ ys) = appendBits (appendBits n xs) ys :=
  List.foldl_append

/-- The bits MODEXP scans are the binary form of the exponent's digits, leading zeros included (R206, R208). -/
theorem appendBits_exponentBits (digits : List Byte) : appendBits 0 (exponentBits digits) = digitsVal digits := by
  induction digits with
  | nil => rfl
  | cons d ds ih =>
    have hsplit : exponentBits (d :: ds) = exponentBits ds ++ digitBits d := by simp [exponentBits]
    rw [hsplit, appendBits_append, ih, appendBits_digitBits, digitsVal_cons]
    omega

/-- The controller's state after scanning bits that spell `k` (R206). -/
structure HoldsPower (base N k : Nat) (st : Nat × Bool) : Prop where
  accumulator : st.1 = base ^ k % N
  /-- Where no set bit has been seen, the exponent so far is 0. -/
  unseen : st.2 = false → k = 0

/-- Squaring doubles the exponent; where it is skipped the exponent is 0, which doubling leaves 0. -/
theorem HoldsPower.squared {base N k : Nat} {st : Nat × Bool} (h : HoldsPower base N k st) :
    (if st.2 then st.1 * st.1 % N else st.1) = base ^ (2 * k) % N := by
  split
  · rw [h.accumulator, ← Nat.mul_mod, ← pow_add, two_mul]
  · next hunseen => rw [h.accumulator, h.unseen (by simpa using hunseen)]

/-- One step appends its bit to the exponent. -/
theorem HoldsPower.step {base N k : Nat} {st : Nat × Bool} (h : HoldsPower base N k st) (bit : Bool) :
    HoldsPower base N (2 * k + bit.toNat) (modExpStep base N st bit) := by
  cases bit with
  | false => exact ⟨h.squared, fun hunseen => by simp [h.unseen hunseen]⟩
  | true =>
    refine ⟨?_, nofun⟩
    calc (if st.2 then st.1 * st.1 % N else st.1) * base % N
        = base ^ (2 * k) % N * base % N := by rw [h.squared]
      _ = base ^ (2 * k + 1) % N := by rw [Nat.mod_mul_mod, pow_succ]

theorem HoldsPower.foldl {base N k : Nat} (bits : List Bool) {st : Nat × Bool} (h : HoldsPower base N k st) :
    HoldsPower base N (appendBits k bits) (bits.foldl (modExpStep base N) st) := by
  induction bits generalizing k st with
  | nil => exact h
  | cons bit bits ih => exact ih (h.step bit)

/-- The controller computes the power modulo N (R205, R206). -/
theorem modExp_eq_pow_mod (base : Nat) {N : Nat} (hN : 1 < N) (exponent : List Byte) :
    modExp base N exponent = base ^ digitsVal exponent % N := by
  have hstart : HoldsPower base N 0 (1, false) := ⟨(Nat.mod_eq_of_lt hN).symm, fun _ => rfl⟩
  have hend := (hstart.foldl (exponentBits exponent)).accumulator
  rwa [appendBits_exponentBits] at hend

/-! ## MODEXP (R205, R208) -/

section
variable {s : State} {d a b : BufId} (hvalid : s.modulus.valid = true)
include hvalid

theorem exec_modexp_aliased (h : d = a ∨ d = b) : exec (.modexp d a b) s = raise .aliased s :=
  (if_neg (by simp [hvalid])).trans (if_pos h)

variable (hda : d ≠ a) (hdb : d ≠ b)
include hda hdb

theorem exec_modexp_noncanonical (ha : s.canonical a = false) : exec (.modexp d a b) s = raise .noncanonical s := by
  simp [exec, execModexp, hvalid, hda, hdb, ha]

theorem exec_modexp_power (h : Inv s) (ha : s.canonical a = true) :
    exec (.modexp d a b) s =
      .next (s.setval d (s.val a ^ digitsVal (s.buf b).significant % s.modVal)).complete := by
  rw [← modExp_eq_pow_mod _ (h.one_lt_modVal hvalid)]
  simp [exec, execModexp, hvalid, hda, hdb, ha, finish]

end

/-- Settles O36: past the three checks the controller's result is written, which is the power modulo N. -/
theorem modexpWritesThePowerModN : Obligations.ModexpWritesThePowerModN := by
  refine ⟨opcodeTable_encodedAs (0x22#8, .r3, _) (by simp [opcodeTable]), fun s d a b h => ⟨exec_modexp_unset d a b,
    exec_modexp_aliased, exec_modexp_noncanonical, fun hvalid hda hdb ha => ?_⟩⟩
  refine ⟨_, exec_modexp_power hvalid hda hdb h ha, setval_complete_val _ _ _, ?_, setval_complete_canonical _ _ _,
    completesWell_setval _ _ _, keepsAllButBuffer_setval _ _ _⟩
  rw [setval_complete_val]
  exact Nat.mod_lt _ (Nat.zero_lt_of_lt (h.one_lt_modVal hvalid))

/-! ## SETMOD (R201) -/

/-- Lists that agree up to a length agree at every index below it. -/
theorem getD_eq_of_take_eq {ds es : List Byte} {n j : Nat} (h : ds.take n = es.take n) (hj : j < n) :
    ds.getD j 0#8 = es.getD j 0#8 := by
  rw [List.getD_eq_getElem?_getD, List.getD_eq_getElem?_getD, ← List.getElem?_take_of_lt hj, h,
    List.getElem?_take_of_lt hj]

section
variable {s : State} {a : BufId}

theorem exec_setmod_noncanonical (ha : s.canonical a = false) : exec (.setmod a) s = raise .noncanonical s :=
  if_pos (by simp [ha])

theorem exec_setmod_divisorShort (ha : s.canonical a = true) (hlen : s.len a < 2) :
    exec (.setmod a) s = raise .divisorShort s :=
  (if_neg (by simp [ha])).trans (if_pos hlen)

theorem exec_setmod_installs (ha : s.canonical a = true) (hlen : 2 ≤ s.len a) :
    exec (.setmod a) s = .next (s.installModulus (s.buf a)).complete :=
  (if_neg (by simp [ha])).trans (if_neg (Nat.not_lt.mpr hlen))

end

/-- Settles O33: past the two checks MOD is the buffer's copy that `installModulus_spec` describes, and no host write reaches
MOD. -/
theorem setmodInstallsTheModulus : Obligations.SetmodInstallsTheModulus := by
  refine ⟨opcodeTable_encodedAs (0x20#8, .r1, _) (by simp [opcodeTable]), fun s addr n v => (hostWrite_frame s addr n v).2,
    fun s a h => ⟨exec_setmod_noncanonical, exec_setmod_divisorShort, fun ha hlen => ?_⟩⟩
  obtain ⟨hlength, hvalid, hdigits, hval, -⟩ := installModulus_spec s (s.buf a) (h.buf_digits a) (h.buf_len a)
  exact ⟨_, exec_setmod_installs ha hlen, hvalid, hlength, fun j => getD_eq_of_take_eq hdigits, hval,
    ⟨rfl, rfl, rfl, rfl, rfl⟩, fun _ => rfl, ⟨rfl, rfl, rfl⟩, rfl, rfl, rfl⟩

/-! ## MODMUL (R202) -/

section
variable {s : State} {d a : BufId} (hvalid : s.modulus.valid = true)
include hvalid

theorem exec_modmul_noncanonical (h : s.canonical d = false ∨ s.canonical a = false) :
    exec (.modmul d a) s = raise .noncanonical s := by
  rcases h with h | h <;> simp [exec, execModmul, hvalid, h]

theorem exec_modmul_product (hd : s.canonical d = true) (ha : s.canonical a = true) :
    exec (.modmul d a) s = .next (s.setval d (s.val d * s.val a % s.modVal)).complete := by
  simp [exec, execModmul, hvalid, hd, ha, finish]

end

/-- Settles O34: past the two checks the product modulo N is written, and nothing else. -/
theorem modmulWritesTheProductModN : Obligations.ModmulWritesTheProductModN := by
  refine ⟨opcodeTable_encodedAs (0x21#8, .r2, _) (by simp [opcodeTable]), fun s d a h => ⟨exec_modmul_unset d a,
    exec_modmul_noncanonical, fun hvalid hd ha => ?_⟩⟩
  refine ⟨_, exec_modmul_product hvalid hd ha, setval_complete_val _ _ _, ?_, setval_complete_canonical _ _ _,
    completesWell_setval _ _ _, keepsAllButBuffer_setval _ _ _⟩
  rw [setval_complete_val]
  exact Nat.mod_lt _ (Nat.zero_lt_of_lt (h.one_lt_modVal hvalid))

/-! ## MODMUL as MUL and REDUCE (R203) -/

/-- Whether or not the dividend is shorter, REDUCE past its checks leaves the canonical remainder (R170, R171). -/
theorem exec_reduce_succeeds {s : State} {d a : BufId} (hda : d ≠ a) (hd : s.canonical d = true)
    (ha : s.canonical a = true) (hlen : 2 ≤ s.len a) :
    ∃ t, exec (.reduce d a) s = .next t ∧ t.val d = s.val d % s.val a ∧ t.canonical d = true ∧ t.err = s.err := by
  by_cases h : s.len d < s.len a
  · exact ⟨_, exec_reduce_unchanged hda hd ha hlen h, (Nat.mod_eq_of_lt (State.val_lt_of_len_lt ha h)).symm, hd, rfl⟩
  · exact ⟨_, exec_reduce_remainder hda hd ha hlen (Nat.le_of_not_lt h), setval_complete_val _ _ _,
      setval_complete_canonical _ _ _, rfl⟩

/-- A register that holds a valid modulus is long enough to be a divisor. -/
theorem Inv.two_le_len_of_val_eq_modVal {s : State} (h : Inv s) (hvalid : s.modulus.valid = true) {m : BufId}
    (hval : s.val m = s.modVal) : 2 ≤ s.len m := by
  have hpow : 256 ^ 1 < 256 ^ s.len m :=
    calc 256 ^ 1 ≤ s.val m := hval ▸ validModulusIsAtLeast256 s h hvalid
      _ < 256 ^ s.len m := s.val_lt m
  exact (Nat.pow_lt_pow_iff_right (by decide)).mp hpow

/-- Settles O35: MUL leaves the product in its register and the modulus in its own, so REDUCE leaves the remainder MODMUL
writes; both are canonical, and equal canonical values have equal lengths. -/
theorem modmulIsMulThenReduce : Obligations.ModmulIsMulThenReduce := by
  intro s d a p m h hvalid hd ha hpd hpa hpm hval hm hfit
  obtain ⟨-, hmul⟩ := mulWritesTheProduct
  obtain ⟨-, -, -, hproduct⟩ := hmul s p d a
  obtain ⟨t, ht, htval, htcanon, ⟨-, -, hterr, -⟩, hkeeps, -⟩ := hproduct hpd hpa hd ha hfit
  have hbuf : t.buf m = s.buf m := hkeeps m hpm.symm
  have htmod : t.val m = s.modVal := (congrArg Buffer.val hbuf).trans hval
  have htlen : 2 ≤ t.len m := (h.two_le_len_of_val_eq_modVal hvalid hval).trans_eq (congrArg Buffer.len hbuf).symm
  obtain ⟨u, hu, huval, hucanon, huerr⟩ :=
    exec_reduce_succeeds hpm htcanon ((congrArg Buffer.canonical hbuf).trans hm) htlen
  obtain ⟨-, hmodmul⟩ := modmulWritesTheProductModN
  obtain ⟨-, -, hremainder⟩ := hmodmul s d a h
  obtain ⟨r, hr, hrval, -, hrcanon, ⟨-, -, hrerr, -⟩, -⟩ := hremainder hvalid hd ha
  have hsame : u.val p = r.val d := by rw [huval, htval, htmod, hrval]
  refine ⟨t, u, r, ht, hu, hr, hsame, ?_, huerr.trans hterr, hrerr⟩
  rw [State.len_eq_digitCount hucanon, State.len_eq_digitCount hrcanon, hsame]

end Sys2Proof.Machine
end

section
/-! PROOFS. Scope: how a command ends (R240, R257, R291): every step has a next state, and every command ends idle with DONE set
within a bounded number of steps. -/

namespace Sys2Proof.Machine

/-! ## Every command ends (R240, R257) -/

theorem State.busy_eq_true_iff {s : State} : s.busy = true ↔ ∃ w, s.pend = some w := Option.isSome_iff_exists

theorem State.busy_eq_false_iff {s : State} : s.busy = false ↔ s.pend = none :=
  Option.isSome_eq_false_iff.trans Option.isNone_iff_eq_none

/-- Settles O17: all six ways a command can answer complete it. -/
theorem everyCommandEndsIdle : Obligations.EveryCommandEndsIdle := by
  intro i s
  rcases exec_cases i s with ⟨_, h⟩ | h | ⟨_, _, _, _, h⟩ | ⟨_, _, _, _, h⟩ | ⟨_, _, _, h⟩ | ⟨_, _, h⟩
  all_goals exact ⟨_, h, rfl, rfl⟩

/-- The engine ends a pending command in one step, whether or not the word decodes (R125, R244). -/
theorem engineStep_ends {s : State} (hbusy : s.busy = true) :
    ∃ t, engineStep s = .next t ∧ t.busy = false ∧ t.done = true := by
  obtain ⟨w, hpend⟩ := State.busy_eq_true_iff.mp hbusy
  cases hdecode : decode w with
  | error e => exact ⟨_, engineStep_of_decodeError hpend hdecode, rfl, rfl⟩
  | ok i =>
    rw [engineStep_of_command hpend hdecode]
    exact everyCommandEndsIdle i s

theorem engineStep_next (s : State) : ∃ t, engineStep s = .next t := by
  cases hbusy : s.busy with
  | false => exact ⟨s, engineStep_of_idle (State.busy_eq_false_iff.mp hbusy)⟩
  | true =>
    obtain ⟨t, ht, -⟩ := engineStep_ends hbusy
    exact ⟨t, ht⟩

/-- Settles O16: the engine's step has a next state, and so has every host access and reset. -/
theorem everyStepHasANextState : Obligations.EveryStepHasANextState := by
  intro s
  rcases step_cases s with ⟨-, h⟩ | ⟨rest, -, h⟩ | ⟨_, _, _, -, h⟩ | ⟨_, _, _, _, -, h⟩ | ⟨_, -, h⟩
  · exact h ▸ engineStep_next s
  · exact h ▸ engineStep_next _
  all_goals exact ⟨_, h⟩

/-- Settles O15: with no word pending the engine's step answers its own state. -/
theorem idleEngineChangesNothing : Obligations.IdleEngineChangesNothing := by
  intro s hidle
  have hpend := State.busy_eq_false_iff.mp hidle
  refine ⟨fun rest hsched => ?_, fun hsched => ?_⟩
  · exact (step_of_engine hsched).trans (engineStep_of_idle (s := { s with schedule := rest }) hpend)
  · exact (step_of_empty hsched).trans (engineStep_of_idle hpend)

/-! ## A pending command is executed (R257, R291) -/

theorem run_succ {M : Host.Core} {s t : M.State} (k : Nat) (hstep : M.step s = .next t) : M.run (k + 1) s = M.run k t := by
  simp only [Host.Core.run, hstep]

/-- A read leaves the pending command pending (R88). -/
theorem hostRead_busy (s : State) (addr : PortAddr) (n : Nat) : (hostRead s addr n).busy = s.busy := by
  rcases hostRead_cases s addr n with h | ⟨v, h⟩
  · rw [h]; rfl
  · rw [h]; rfl

theorem hostRead_schedule (s : State) (addr : PortAddr) (n : Nat) : (hostRead s addr n).schedule = s.schedule := by
  rcases hostRead_cases s addr n with h | ⟨v, h⟩
  · rw [h]; rfl
  · rw [h]; rfl

/-- Where a command is pending, a step ends it or takes an event off the schedule and leaves it pending, resets apart (R79,
R257). -/
theorem step_of_busy {s : State} (hbusy : s.busy = true) (hreset : ∀ e ∈ s.schedule, e ≠ .reset) :
    ∃ t, step s = .next t ∧ (t.busy = false ∧ t.done = true ∨ t.busy = true ∧ ∃ e, s.schedule = e :: t.schedule) := by
  rcases step_cases s with
    ⟨-, h⟩ | ⟨rest, -, h⟩ | ⟨addr, n, rest, hsched, h⟩ | ⟨addr, n, v, rest, hsched, -⟩ | ⟨rest, hsched, -⟩
  · obtain ⟨t, ht, hends⟩ := engineStep_ends hbusy
    exact ⟨t, h.trans ht, .inl hends⟩
  · obtain ⟨t, ht, hends⟩ := engineStep_ends (s := { s with schedule := rest }) hbusy
    exact ⟨t, h.trans ht, .inl hends⟩
  · exact ⟨_, h, .inr ⟨(hostRead_busy _ _ _).trans hbusy, _, by rw [hsched, hostRead_schedule]⟩⟩
  · exact ⟨_, step_write_busy hsched hbusy, .inr ⟨hbusy, _, hsched⟩⟩
  · exact absurd rfl (hreset .reset (by simp [hsched]))

/-- Settles O18, by induction on the events to come: a step that does not end the command takes one of them. -/
theorem pendingCommandCompletes : Obligations.PendingCommandCompletes := by
  intro s hbusy hreset
  induction hsched : s.schedule generalizing s with
  | nil =>
    obtain ⟨t, ht, hends | ⟨-, e, he⟩⟩ := step_of_busy hbusy hreset
    · exact ⟨1, t, by simp, run_succ 0 ht, hends⟩
    · cases hsched.symm.trans he
  | cons e rest ih =>
    obtain ⟨t, ht, hends | ⟨htbusy, e', he⟩⟩ := step_of_busy hbusy hreset
    · exact ⟨1, t, by simp, run_succ 0 ht, hends⟩
    · obtain ⟨-, hrest⟩ := List.cons.inj (hsched.symm.trans he)
      have htreset : ∀ x ∈ t.schedule, x ≠ .reset := fun x hx => hreset x (by rw [he]; exact .tail _ hx)
      obtain ⟨k, u, hk, hrun, hends⟩ := ih t htbusy htreset hrest.symm
      exact ⟨k + 1, u, by simpa using hk, (run_succ k ht).trans hrun, hends⟩

end Sys2Proof.Machine
end

section
/-! PROOFS. Scope: every command reports the first error that applies to it, and succeeds where none does (R242 to R246). -/

namespace Sys2Proof.Machine

/-! ## The first error that applies (R246) -/

open Classical in
/-- The first error that applies to the command word, in the order of R246. -/
noncomputable def firstError (w : Word) (s : State) : Option ErrCode :=
  errorPriority.find? fun c => ErrorApplies c w s

theorem ReportedError.firstError_eq {c : ErrCode} {w : Word} {s : State} (h : ReportedError c w s) :
    firstError w s = some c := by
  obtain ⟨before, after, horder, happlies, hbefore⟩ := h
  exact List.find?_eq_some_iff_append.mpr ⟨by simpa using happlies, before, after, horder, by simpa using hbefore⟩

theorem firstError_eq_none {w : Word} {s : State} (h : ∀ c, ¬ErrorApplies c w s) : firstError w s = none := by
  simp [firstError, h]

/-- A word of an unassigned opcode has no error before that one. -/
theorem firstError_illegalOpcode {w : Word} {s : State} (h : ErrorApplies .illegalOpcode w s) :
    firstError w s = some .illegalOpcode := by
  simp [firstError, errorPriority, h]

/-! ## The errors of each command, in their order

R242's causes at the words of one opcode, written as that command's checks. -/

section
variable {w : Word} {s : State} (hlegal : ¬ErrorApplies .illegalOpcode w s)
include hlegal

theorem firstError_reservedField (h : ErrorApplies .reservedField w s) : firstError w s = some .reservedField := by
  simp [firstError, errorPriority, hlegal, h]

variable (hres : ¬ErrorApplies .reservedField w s)
include hres

open Classical in
/-- Past the two decode errors, the errors of operands and of the modulus remain. -/
theorem firstError_of_decodes : firstError w s =
    if ErrorApplies .modulusUnset w s then some .modulusUnset
    else if ErrorApplies .aliased w s then some .aliased
    else if ErrorApplies .noncanonical w s then some .noncanonical
    else if ErrorApplies .divisorShort w s then some .divisorShort
    else if ErrorApplies .sdivRange w s then some .sdivRange
    else if ErrorApplies .capacity w s then some .capacity
    else none := by
  simp only [firstError, errorPriority, List.find?_cons, hlegal, hres]
  split_ifs <;> simp [*]

theorem firstError_nop (hopc : opcodeOf w = 0x00#8) : firstError w s = none := by
  simp [firstError_of_decodes hlegal hres, ErrorApplies, hopc]

theorem firstError_mac (hopc : opcodeOf w = 0x01#8) : firstError w s = none := by
  simp [firstError_of_decodes hlegal hres, ErrorApplies, hopc]

theorem firstError_sdiv (hopc : opcodeOf w = 0x02#8) : firstError w s =
    if (fieldDV w).toNat ≤ s.rem.toNat then some .sdivRange else none := by
  simp [firstError_of_decodes hlegal hres, ErrorApplies, hopc]

theorem firstError_mul (hopc : opcodeOf w = 0x10#8) : firstError w s =
    if fieldRD w = fieldRA w ∨ fieldRD w = fieldRB w then some .aliased
    else if !s.canonical (fieldRA w) || !s.canonical (fieldRB w) then some .noncanonical
    else if s.cap < s.len (fieldRA w) + s.len (fieldRB w) then some .capacity
    else none := by
  simp [firstError_of_decodes hlegal hres, ErrorApplies, hopc]

theorem firstError_shl (hopc : opcodeOf w = 0x11#8) : firstError w s =
    if !s.canonical (fieldRD w) then some .noncanonical
    else if 256 ^ s.cap ≤ s.val (fieldRD w) * 2 ^ (fieldSH w).val then some .capacity
    else none := by
  simp [firstError_of_decodes hlegal hres, ErrorApplies, hopc]

theorem firstError_shr (hopc : opcodeOf w = 0x12#8) : firstError w s =
    if !s.canonical (fieldRD w) then some .noncanonical else none := by
  simp [firstError_of_decodes hlegal hres, ErrorApplies, hopc]

theorem firstError_reduce (hopc : opcodeOf w = 0x13#8) : firstError w s =
    if fieldRD w = fieldRA w then some .aliased
    else if !s.canonical (fieldRD w) || !s.canonical (fieldRA w) then some .noncanonical
    else if s.len (fieldRA w) < 2 then some .divisorShort
    else none := by
  simp [firstError_of_decodes hlegal hres, ErrorApplies, hopc]

theorem firstError_setmod (hopc : opcodeOf w = 0x20#8) : firstError w s =
    if !s.canonical (fieldRA w) then some .noncanonical
    else if s.len (fieldRA w) < 2 then some .divisorShort
    else none := by
  simp [firstError_of_decodes hlegal hres, ErrorApplies, hopc]

theorem firstError_modmul (hopc : opcodeOf w = 0x21#8) : firstError w s =
    if !s.modulus.valid then some .modulusUnset
    else if !s.canonical (fieldRD w) || !s.canonical (fieldRA w) then some .noncanonical
    else none := by
  simp [firstError_of_decodes hlegal hres, ErrorApplies, hopc]

theorem firstError_modexp (hopc : opcodeOf w = 0x22#8) : firstError w s =
    if !s.modulus.valid then some .modulusUnset
    else if fieldRD w = fieldRA w ∨ fieldRD w = fieldRB w then some .aliased
    else if !s.canonical (fieldRA w) then some .noncanonical
    else none := by
  simp [firstError_of_decodes hlegal hres, ErrorApplies, hopc]

end

/-- A word to which neither decode error applies is a command of the opcode map. -/
theorem decode_of_no_error {w : Word} {s : State} (hlegal : ¬ErrorApplies .illegalOpcode w s)
    (hres : ¬ErrorApplies .reservedField w s) : ∃ row ∈ opcodeTable, opcodeOf w = row.1 ∧ decode w = .ok (row.2.2 w) := by
  simp only [ErrorApplies, not_forall, not_not, not_exists, not_and] at hlegal hres
  obtain ⟨e, he, hopc⟩ := hlegal
  have hzero := hres e he hopc
  rw [← opcodeTable_reservedBits] at he
  obtain ⟨row, hrow, rfl⟩ := List.mem_map.mp he
  exact ⟨row, hrow, hopc.symm, decode_of_row hrow hopc.symm hzero⟩

/-! ## SHL's capacity check (R164, R242) -/

/-- The top digit alone is worth no more than the whole number. -/
theorem getD_mul_le_digitsVal_take (ds : List Byte) (n : Nat) :
    (ds.getD n 0#8).toNat * 256 ^ n ≤ digitsVal (ds.take (n + 1)) := by
  induction n generalizing ds with
  | zero => cases ds <;> simp
  | succ n ih =>
    cases ds with
    | nil => simp
    | cons d ds =>
      have hds := ih ds
      simp only [List.take_succ_cons, digitsVal_cons, List.getD_cons_succ, pow_succ, ← mul_assoc]
      omega

/-- A bit shifted out of the top digit takes the value past the buffer's digits. -/
theorem Buffer.le_shl_val (b : Buffer) (n : ShiftCount) (hpos : b.len ≠ 0) (htop : b.topDigit.toNat / 2 ^ (8 - n.val) ≠ 0) :
    256 ^ b.len ≤ b.val * 2 ^ n.val := by
  have hn := n.isLt
  have hdigit : 2 ^ (8 - n.val) ≤ b.topDigit.toNat :=
    Nat.le_of_not_lt fun hlt => htop (Nat.div_eq_of_lt hlt)
  have hval : b.topDigit.toNat * 256 ^ (b.len - 1) ≤ b.val := by
    have := getD_mul_le_digitsVal_take b.digits (b.len - 1)
    rwa [Nat.sub_add_cancel (Nat.pos_of_ne_zero hpos)] at this
  calc 256 ^ b.len = 256 * 256 ^ (b.len - 1) := by rw [← pow_succ', Nat.sub_add_cancel (Nat.pos_of_ne_zero hpos)]
    _ = 2 ^ (8 - n.val + n.val) * 256 ^ (b.len - 1) := by rw [Nat.sub_add_cancel hn.le]; norm_num
    _ = 2 ^ (8 - n.val) * 256 ^ (b.len - 1) * 2 ^ n.val := by rw [pow_add]; ring
    _ ≤ b.val * 2 ^ n.val := Nat.mul_le_mul_right _ ((Nat.mul_le_mul_right _ hdigit).trans hval)

section
variable {s : State} (h : Inv s) (d : BufId) (n : ShiftCount)
include h

/-- A shift that is no shift at all never exceeds the capacity. -/
theorem Inv.unshifted_fits (hzero : n.val = 0 ∨ s.len d = 0) : ¬256 ^ s.cap ≤ s.val d * 2 ^ n.val := by
  have hfits := h.val_lt d
  rcases hzero with hn | hlen
  · simpa [hn] using hfits
  · have hval : s.val d = 0 := by simpa [hlen] using s.val_lt d
    simp [hval]

/-- Every other shift exceeds the capacity exactly where a bit leaves the top digit of a full buffer. -/
theorem Inv.shl_overflows_iff (hshift : ¬(n.val = 0 ∨ s.len d = 0)) :
    256 ^ s.cap ≤ s.val d * 2 ^ n.val ↔ s.len d = s.cap ∧ (s.buf d).topDigit.toNat / 2 ^ (8 - n.val) ≠ 0 := by
  obtain ⟨-, hlen⟩ := not_or.mp hshift
  constructor
  · intro hover
    by_contra hfit
    have hfits : s.val d * 2 ^ n.val < 256 ^ s.cap :=
      (s.buf d).shl_val_lt n hlen (h.buf_len d) fun hfull => not_not.mp (not_and.mp hfit hfull)
    exact absurd hover hfits.not_ge
  · rintro ⟨hfull, htop⟩
    exact hfull ▸ (s.buf d).le_shl_val n hlen htop

end

/-! ## How a command ends (R244, R245) -/

/-- How a command ends whose first applicable error is `e`: in the error completion of `e`, or well where there is none. -/
inductive CommandEnds (s : State) : Option ErrCode → Result → Prop where
  | error (c : ErrCode) : CommandEnds s (some c) (raise c s)
  | success {t : State} (h : CompletesWell s t) : CommandEnds s none (.next t)

section
variable {s : State}

theorem CommandEnds.eq_raise {c : ErrCode} {r : Result} (h : CommandEnds s (some c) r) : r = raise c s := by
  cases h; rfl

theorem CommandEnds.completesWell {r : Result} (h : CommandEnds s none r) : ∃ t, r = .next t ∧ CompletesWell s t := by
  cases h with
  | success h => exact ⟨_, rfl, h⟩

/-- A check of a command that is the check of its error. -/
theorem CommandEnds.check {p : Prop} [Decidable p] {c : ErrCode} {e : Option ErrCode} {r : Result}
    (h : CommandEnds s e r) : CommandEnds s (if p then some c else e) (if p then raise c s else r) := by
  split_ifs
  · exact .error c
  · exact h

/-- A completion after any write that leaves ERR, ERRCODE and HERR alone. -/
theorem CommandEnds.finish {t : State} (herr : t.err = s.err := by rfl) (hcode : t.errcode = s.errcode := by rfl)
    (hherr : t.herr = s.herr := by rfl) : CommandEnds s none (finish t) :=
  .success ⟨rfl, rfl, herr, hcode, hherr⟩

theorem CommandEnds.either {p : Prop} [Decidable p] {e : Option ErrCode} {r r' : Result} (h : CommandEnds s e r)
    (h' : CommandEnds s e r') : CommandEnds s e (if p then r else r') := by
  split_ifs
  · exact h
  · exact h'

/-- SHL's capacity check stands in another form than the error's cause, and after the shifts that change nothing. -/
theorem shl_ends (h : Inv s) (d : BufId) (n : ShiftCount) :
    CommandEnds s (if !s.canonical d then some .noncanonical
      else if 256 ^ s.cap ≤ s.val d * 2 ^ n.val then some .capacity else none) (exec (.shl d n) s) := by
  refine .check ?_
  by_cases hzero : n.val = 0 ∨ s.len d = 0
  · rw [if_pos hzero, if_neg (h.unshifted_fits d n hzero)]
    exact .finish
  · simp only [if_neg hzero, h.shl_overflows_iff d n hzero]
    exact .check .finish

/-- The command of every row of the opcode map makes the checks of the errors that apply to its words, in their order. -/
theorem row_ends (h : Inv s) {w : Word} (hlegal : ¬ErrorApplies .illegalOpcode w s)
    (hres : ¬ErrorApplies .reservedField w s) :
    ∀ row ∈ opcodeTable, opcodeOf w = row.1 → CommandEnds s (firstError w s) (exec (row.2.2 w) s) := by
  simp only [opcodeTable, List.forall_mem_cons]
  refine ⟨fun hopc => ?_, fun hopc => ?_, fun hopc => ?_, fun hopc => ?_, fun hopc => ?_, fun hopc => ?_, fun hopc => ?_,
    fun hopc => ?_, fun hopc => ?_, fun hopc => ?_, nofun⟩
  · rw [firstError_nop hlegal hres hopc]; exact .finish
  · rw [firstError_mac hlegal hres hopc]; exact .finish
  · rw [firstError_sdiv hlegal hres hopc]; exact .check .finish
  · rw [firstError_mul hlegal hres hopc]; exact .check (.check (.check .finish))
  · rw [firstError_shl hlegal hres hopc]; exact shl_ends h _ _
  · rw [firstError_shr hlegal hres hopc]; exact .check (.either .finish .finish)
  · rw [firstError_reduce hlegal hres hopc]; exact .check (.check (.check (.either .finish .finish)))
  · rw [firstError_setmod hlegal hres hopc]; exact .check (.check .finish)
  · rw [firstError_modmul hlegal hres hopc]; exact .check (.check .finish)
  · rw [firstError_modexp hlegal hres hopc]; exact .check (.check (.check .finish))

/-- The engine reports the first error that applies to the pending word, decode errors included. -/
theorem engineStep_commandEnds (h : Inv s) {w : Word} (hpend : s.pend = some w) :
    CommandEnds s (firstError w s) (engineStep s) := by
  by_cases hlegal : ErrorApplies .illegalOpcode w s
  · rw [firstError_illegalOpcode hlegal, engineStep_of_decodeError hpend (decode_unassigned hlegal)]
    exact .error _
  by_cases hres : ErrorApplies .reservedField w s
  · obtain ⟨⟨opc, mask⟩, hrow, hopc, hbits⟩ := hres
    rw [firstError_reservedField hlegal ⟨_, hrow, hopc, hbits⟩,
      engineStep_of_decodeError hpend (decode_reserved hrow hopc.symm hbits)]
    exact .error _
  obtain ⟨row, hrow, hopc, hdecode⟩ := decode_of_no_error hlegal hres
  rw [engineStep_of_command hpend hdecode]
  exact row_ends h hlegal hres row hrow hopc

end

/-- ERR and ERRCODE are clear while a command is pending (R48, R84). -/
theorem Inv.no_error_of_pending {s : State} (h : Inv s) {w : Word} (hpend : s.pend = some w) :
    s.err = false ∧ s.errcode = .none := by
  obtain ⟨-, herr⟩ := h.busy_clear (State.busy_eq_true_iff.mpr ⟨w, hpend⟩)
  exact ⟨herr, by simpa [herr] using h.err_code⟩

/-- Settles O19: the engine's turn reports the first applicable error, which the events to come have no part in; while a command
is pending ERR and ERRCODE are clear, and a successful completion leaves them so. -/
theorem firstApplicableErrorIsReported : Obligations.FirstApplicableErrorIsReported := by
  intro s w rest h hturn
  obtain ⟨hpend, hsched⟩ := hturn
  have hends : CommandEnds { s with schedule := rest } (firstError w s) (step s) := by
    rw [step_of_engine hsched]
    exact engineStep_commandEnds (h.withSchedule rest) hpend
  refine ⟨fun c hc => ?_, fun hnone => ?_⟩
  · rw [hc.firstError_eq] at hends
    exact hends.eq_raise
  · rw [firstError_eq_none hnone] at hends
    obtain ⟨t, ht, htbusy, htdone, hterr, htcode, htherr⟩ := hends.completesWell
    obtain ⟨herr, hcode⟩ := h.no_error_of_pending hpend
    exact ⟨t, ht, htbusy, htdone, hterr.trans herr, htcode.trans hcode, htherr⟩

end Sys2Proof.Machine
end

section
/-! PROOFS. Scope: the reset event as a step (R280, R281). -/

namespace Sys2Proof.Machine

theorem step_of_reset {s : State} {rest : List Event} (h : s.schedule = .reset :: rest) :
    step s = .next ({ s with schedule := rest } : State).takeReset := by
  rw [step, h]
  rfl

/-- Settles O2: the event ends in a state of `State.atReset`, whose values are O1's; the pending command has no part in it. -/
theorem resetEventAbandonsThePendingCommand : Obligations.ResetEventAbandonsThePendingCommand := by
  intro s rest hsched
  obtain ⟨hlen, hvalid, hmlen, hres, hcarry, hrem, hstatus, -, hpend, hcap, -⟩ :=
    resetStateHasTheResetValues s.cap s.draws rest s.reads
  exact ⟨_, step_of_reset hsched, hlen, hvalid, hmlen, hres, hcarry, hrem, hstatus, hpend, hcap, rfl, rfl⟩

end Sys2Proof.Machine
end
